-- ==== Sys2Proof/Word.lean ====
section
/-! DEFINITION. Bytes and words (R12), the two input ports (R71), the operand record that comes with an input word
(R70, R72), and the turns the core takes (R62). -/

namespace Sys2Proof

/-- A byte (R12): bit 7 is the most significant. -/
abbrev Byte := BitVec 8

/-- A byte string (R12, R50): byte 0 first, its length taken from the list. -/
abbrev Bytes := List Byte

/-- A 16-bit integer (R6: `fCnt`). -/
abbrev Half := BitVec 16

/-- A 32-bit integer, and the 32-bit input word of R70. -/
abbrev Word := BitVec 32

/-- The two ports an input arrives on (R71). -/
inductive Port where
  /-- Driven by the host: codes 0x01 to 0x7F. -/
  | command
  /-- Driven by the radio and by the reset source: codes 0x80 to 0xBF. -/
  | event
deriving DecidableEq, Repr

/-- The operand record of an input word (R70, R72): every operand that is not `IMM8`. One record serves all codes:
each code reads the slots that R72's row of it needs and no other. The slots are the model's layout of what the spec
leaves abstract (DESIGN CHOICE, safe, log 11). -/
structure Operands where
  /-- First byte string: K, S, KN, KM, DATA, or the P of `PB.ENC`. -/
  bytes1 : Bytes := []
  /-- Second byte string: the block P, D, M, KA, or the P of `MS.BUILD`. -/
  bytes2 : Bytes := []
  /-- Third byte string: the P of `LW.BUILD`. -/
  bytes3 : Bytes := []
  /-- First 32-bit integer: PID, ADDR, PORT, INIT_PKTID, or the SID of `MS.BUILD`. -/
  word1 : Word := 0
  /-- Second 32-bit integer: the SID of `CTR.SIMPLE`, the PID of `MS.BUILD`. -/
  word2 : Word := 0
  /-- 16-bit integer: FC, INIT_FCNT. -/
  half : Half := 0
  /-- INIT_CHIDX, in a field wider than 3 bits, as R280 allows (DESIGN CHOICE, safe, log 5). -/
  index : Byte := 0
  /-- The `receivedLength` of R212 and R213, apart from DATA (DESIGN CHOICE, safe, log 6). -/
  length : Nat := 0
  /-- RSSI, opaque (R212; a natural number stands for any float, DESIGN CHOICE, safe, log 7). -/
  rssi : Nat := 0
  /-- SNR, opaque (as RSSI). -/
  snr : Nat := 0
deriving DecidableEq, Repr

/-- One turn of the core (R62): an input on a port, or the core's own step `CTL.DISPATCH`, which needs no input (R211). -/
inductive Turn where
  | input (port : Port) (word : Word) (operands : Operands)
  | own
deriving DecidableEq, Repr

end Sys2Proof
end

