-- ==== Sys2Proof/Syntax.lean ====
section
/-! DEFINITION. The instructions: one constructor per row of spec/opcode_table.json, operands in the order of R72 with
`IMM8`, where it is an operand, first (R95). -/

namespace Sys2Proof

/-- The commands, the events and the internal step (R72). A byte-string operand may have any length here: one of the
wrong length is an instruction that raises `BAD_OPERAND` (R58), not one that cannot be written. -/
inductive Instr where
  /-- `AES.KEYEXP K` (0x01, R123). -/
  | aesKeyexp (k : Bytes)
  /-- `AES.ENCRK S, P` (0x02, R124). -/
  | aesEncrk (sched p : Bytes)
  /-- `AES.ENC K, P` (0x03, R125). -/
  | aesEnc (k p : Bytes)
  /-- `CTR.SIMPLE K, PID, SID, D` (0x10, R144). -/
  | ctrSimple (k : Bytes) (pid sid : Word) (d : Bytes)
  /-- `CTR.LWAN DIR, K, ADDR, FC, D` (0x11, R145). -/
  | ctrLwan (dir : Byte) (k : Bytes) (addr : Word) (fc : Half) (d : Bytes)
  /-- `CMAC.SUBKEYS K` (0x20, R164). -/
  | cmacSubkeys (k : Bytes)
  /-- `CMAC.TAG K, M` (0x21, R165). -/
  | cmacTag (k m : Bytes)
  /-- `PB.ENC PORT, P` (0x30, R181). -/
  | pbEnc (port : Word) (p : Bytes)
  /-- `LW.BUILD KN, KA, ADDR, FC, P` (0x31, R187). -/
  | lwBuild (kn ka : Bytes) (addr : Word) (fc : Half) (p : Bytes)
  /-- `MS.BUILD KM, SID, PID, P` (0x32, R189). -/
  | msBuild (km : Bytes) (sid pid : Word) (p : Bytes)
  /-- `REG.READ REGNO` (0x40, R227). -/
  | regRead (regno : Byte)
  /-- `EV.RESET INIT_PKTID, INIT_FCNT, INIT_CHIDX` (0x80, R280). -/
  | evReset (initPktid : Word) (initFcnt : Half) (initChidx : Byte)
  /-- `EV.RXSIG` (0x81, R218). -/
  | evRxsig
  /-- `EV.RDRESP OK, DATA, RSSI, SNR` (0x82, R221), with the `receivedLength` of R213. -/
  | evRdresp (ok : Bool) (data : Bytes) (receivedLength rssi snr : Nat)
  /-- `EV.TXRESP OK` (0x83, R223 and R225). -/
  | evTxresp (ok : Bool)
  /-- `CTL.DISPATCH`, the core's own step (0xC0, R220). -/
  | ctlDispatch
deriving DecidableEq, Repr

end Sys2Proof
end

