-- ==== Sys2Proof/Decode.lean ====
section
/-! DEFINITION. Decoding an input word with its operand record (R70 to R76), the encoder, and the turn that stands for a
word of spec/opcode_table.json. -/

namespace Sys2Proof

/-- Why a word decodes to the verdict `ILLEGAL_COMMAND` (R75), in the order of the checks of R76. -/
inductive DecodeError where
  /-- `RSV` is not zero. -/
  | reservedNotZero
  /-- `CODE` is 0xC0, which is never an input (R71). -/
  | internalCode
  /-- `CODE` is not assigned in R72. -/
  | codeUnassigned
  /-- `CODE` is assigned, on the other port. -/
  | wrongPort
  /-- `IMM8` is not what R73 allows for the code. -/
  | immNotAllowed
deriving DecidableEq, Repr

/-- What R73 allows in `IMM8`. -/
inductive ImmRule where
  /-- Must be 0x00. -/
  | zero
  /-- Any value is an operand. -/
  | any
  /-- Bit 0 is the OK bit and bits 7:1 must be 0. -/
  | okBit
deriving DecidableEq, Repr

/-- One row of R72: the code, its port, its use of `IMM8`, and the instruction that the operands make. -/
structure Row where
  code : Byte
  port : Port
  imm : ImmRule
  build : Byte → Operands → Instr

/-- `CODE`, bits 7:0 (R70). -/
def codeField (w : Word) : Byte := w.extractLsb' 0 8

/-- `IMM8`, bits 15:8 (R70). -/
def immField (w : Word) : Byte := w.extractLsb' 8 8

/-- `RSV`, bits 31:16 (R70). -/
def rsvField (w : Word) : Half := w.extractLsb' 16 16

/-- The word with `RSV` zero (R70). -/
def wordOf (code imm : Byte) : Word := code.zeroExtend 32 ||| (imm.zeroExtend 32 <<< 8)

/-- Whether R73 allows `v` in `IMM8`. -/
def immAllowed (r : ImmRule) (v : Byte) : Bool :=
  match r with
  | .zero => v == 0#8
  | .any => true
  | .okBit => v.extractLsb' 1 7 == 0#7

/-- The OK bit, `IMM8[0]` (R73). -/
def okOf (imm : Byte) : Bool := imm.getLsbD 0

/-- The codes of the command port (R72). -/
def commandRows : List Row :=
  [ ⟨0x01, .command, .zero, fun _ o => .aesKeyexp o.bytes1⟩,
    ⟨0x02, .command, .zero, fun _ o => .aesEncrk o.bytes1 o.bytes2⟩,
    ⟨0x03, .command, .zero, fun _ o => .aesEnc o.bytes1 o.bytes2⟩,
    ⟨0x10, .command, .zero, fun _ o => .ctrSimple o.bytes1 o.word1 o.word2 o.bytes2⟩,
    ⟨0x11, .command, .any, fun imm o => .ctrLwan imm o.bytes1 o.word1 o.half o.bytes2⟩,
    ⟨0x20, .command, .zero, fun _ o => .cmacSubkeys o.bytes1⟩,
    ⟨0x21, .command, .zero, fun _ o => .cmacTag o.bytes1 o.bytes2⟩,
    ⟨0x30, .command, .zero, fun _ o => .pbEnc o.word1 o.bytes1⟩,
    ⟨0x31, .command, .zero, fun _ o => .lwBuild o.bytes1 o.bytes2 o.word1 o.half o.bytes3⟩,
    ⟨0x32, .command, .zero, fun _ o => .msBuild o.bytes1 o.word1 o.word2 o.bytes2⟩,
    ⟨0x40, .command, .any, fun imm _ => .regRead imm⟩ ]

/-- The codes of the event port (R72). -/
def eventRows : List Row :=
  [ ⟨0x80, .event, .zero, fun _ o => .evReset o.word1 o.half o.index⟩,
    ⟨0x81, .event, .zero, fun _ _ => .evRxsig⟩,
    ⟨0x82, .event, .okBit, fun imm o => .evRdresp (okOf imm) o.bytes1 o.length o.rssi o.snr⟩,
    ⟨0x83, .event, .okBit, fun imm _ => .evTxresp (okOf imm)⟩ ]

/-- The assigned input codes (R72, R74). -/
def codeRows : List Row := commandRows ++ eventRows

/-- The row a code selects. -/
def rowOf (code : Byte) : Option Row := codeRows.find? (fun r => r.code == code)

/-- Decoding an input (R76), total on every word with every record, checks in R76's order: `RSV`, then `CODE` assigned and
on its port, then `IMM8`. Operand lengths are the command's own checks. -/
def decode (port : Port) (w : Word) (o : Operands) : Except DecodeError Instr :=
  if rsvField w ≠ 0#16 then .error .reservedNotZero
  else if codeField w = 0xC0#8 then .error .internalCode
  else match rowOf (codeField w) with
    | none => .error .codeUnassigned
    | some r =>
      if r.port ≠ port then .error .wrongPort
      else if immAllowed r.imm (immField w) = false then .error .immNotAllowed
      else .ok (r.build (immField w) o)

/-- The instruction a turn stands for: an input is decoded, and the core's own step is `CTL.DISPATCH` (R211). -/
def decodeTurn : Turn → Except DecodeError Instr
  | .input port w o => decode port w o
  | .own => .ok .ctlDispatch

/-- `IMM8` of an OK bit (R73). -/
def immOfOk (ok : Bool) : Byte := if ok then 1 else 0

/-- The encoder: the turn whose decoding is the instruction, unused operand slots empty or zero (R70, R72, R73). -/
def encode : Instr → Turn
  | .aesKeyexp k => .input .command (wordOf 0x01 0) { bytes1 := k }
  | .aesEncrk sched p => .input .command (wordOf 0x02 0) { bytes1 := sched, bytes2 := p }
  | .aesEnc k p => .input .command (wordOf 0x03 0) { bytes1 := k, bytes2 := p }
  | .ctrSimple k pid sid d => .input .command (wordOf 0x10 0) { bytes1 := k, bytes2 := d, word1 := pid, word2 := sid }
  | .ctrLwan dir k addr fc d => .input .command (wordOf 0x11 dir) { bytes1 := k, bytes2 := d, word1 := addr, half := fc }
  | .cmacSubkeys k => .input .command (wordOf 0x20 0) { bytes1 := k }
  | .cmacTag k m => .input .command (wordOf 0x21 0) { bytes1 := k, bytes2 := m }
  | .pbEnc port p => .input .command (wordOf 0x30 0) { bytes1 := p, word1 := port }
  | .lwBuild kn ka addr fc p =>
    .input .command (wordOf 0x31 0) { bytes1 := kn, bytes2 := ka, bytes3 := p, word1 := addr, half := fc }
  | .msBuild km sid pid p => .input .command (wordOf 0x32 0) { bytes1 := km, bytes2 := p, word1 := sid, word2 := pid }
  | .regRead regno => .input .command (wordOf 0x40 regno) {}
  | .evReset initPktid initFcnt initChidx =>
    .input .event (wordOf 0x80 0) { word1 := initPktid, half := initFcnt, index := initChidx }
  | .evRxsig => .input .event (wordOf 0x81 0) {}
  | .evRdresp ok data receivedLength rssi snr =>
    .input .event (wordOf 0x82 (immOfOk ok)) { bytes1 := data, length := receivedLength, rssi := rssi, snr := snr }
  | .evTxresp ok => .input .event (wordOf 0x83 (immOfOk ok)) {}
  | .ctlDispatch => .own

/-- The operand record of zeros for a code: its fixed-length byte strings have the length of R72 and hold zeros, its
other strings are empty and its integers zero (DESIGN CHOICE, safe, log 11). -/
def zeroOperands (code : Byte) : Operands :=
  { bytes1 :=
      if code = 0x02#8 then List.replicate 176 0
      else if code = 0x30#8 ∨ code = 0x40#8 ∨ 0x80#8 ≤ code then []
      else List.replicate 16 0,
    bytes2 := if code = 0x02#8 ∨ code = 0x03#8 ∨ code = 0x31#8 then List.replicate 16 0 else [] }

/-- The turn for a word of spec/opcode_table.json: the core's own step for code 0xC0 (its row has no port; DESIGN CHOICE,
safe, log 12), else the word on the port of its code range (R71) with an operand record of zeros. -/
def tableTurn (nbits w : Nat) : Turn :=
  let word : Word := BitVec.ofNat 32 (w % 2 ^ nbits)
  let code := codeField word
  if code = 0xC0#8 then .own
  else .input (if code.toNat < 0x80 then .command else .event) word (zeroOperands code)

/-- The instruction the decoder reads from a word of spec/opcode_table.json. -/
def decodeTableWord (nbits w : Nat) : Option Instr := (decodeTurn (tableTurn nbits w)).toOption

end Sys2Proof
end

