-- ==== Sys2Proof/Config.lean ====
section
/-! DEFINITION. The parameters the spec leaves open (R8 to R11, "Parameters a model takes" of 92_eei_decisions.md),
each an opaque constant fixed for the life of a run, and the one free value of the model. -/

namespace Sys2Proof

/-- A radio configuration descriptor (R10). The core never computes on its fields. The fields' types are the model's
(DESIGN CHOICE, safe, log 8). -/
structure Descriptor where
  frequency : Nat
  bandwidth : Nat
  spreadingFactor : Nat
  codingRate : Nat
  preambleLength : Nat
  syncWord : Nat
  crcMode : Nat
  outputPower : Int
deriving DecidableEq, Repr, Inhabited

namespace Config

/-- `KEY_NWK`, the network key (R9). -/
opaque keyNwk : Vector Byte 16

/-- `KEY_APP`, the application key (R9). -/
opaque keyApp : Vector Byte 16

/-- `KEY_MESH`, the mesh key (R9). -/
opaque keyMesh : Vector Byte 16

/-- `DEVADDR`, the LoRaWAN device address (R9). -/
opaque devAddr : Word

/-- `NODE_ID`, the Meshtastic source identifier (R9). -/
opaque nodeId : Word

/-- `MESH_FLAGS`, any byte (R8, R92). -/
opaque meshFlags : Byte

/-- `MAX_PAYLOAD` with its bound: R11 admits only `MAX_PAYLOAD ≤ 246` (I4), and the type says so. -/
opaque maxPayloadBounded : Fin 247

/-- `MAX_PAYLOAD` (R8). -/
def maxPayload : Nat := maxPayloadBounded.val

/-- `CFG_TEMPEST_RX` (R9). -/
opaque cfgTempestRx : Descriptor

/-- `CFG_LWAN_TX`, one descriptor per channel (R9). -/
opaque cfgLwanTx : Fin 8 → Descriptor

/-- `CFG_MESH_TX` (R9). -/
opaque cfgMeshTx : Descriptor

/-- FREE VALUE: `Varint` of a number of 2^32 or more, which only the length of a `PB.ENC` payload of 4 GiB can be.
R85 states `Varint` for `v < 2^32` only and R181 puts no limit on P (DESIGN CHOICE, safe, log 10). -/
opaque varintBeyond : Nat → Bytes

end Config

end Sys2Proof
end

