-- ==== Sys2Proof/Machine/State.lean ====
section
/-! DEFINITION. The state of the core: exactly the registers of R20, the output trace of R39, and the model's two own
fields for the result channel and the turns still to come. State.reset is the state after `EV.RESET 1, 0, 0`. -/

namespace Sys2Proof.Machine

/-- Why a step stops with a fault of the model. There is none: a fault of the core (R250) is a NEXT state with the code
in `FAULT`, and a core that is stuck (R253) stays where it is (log 3). Nothing raises a value of this type. -/
inductive Fault where
deriving DecidableEq, Repr

/-- Why a step has no meaning. -/
inductive Refusal where
  /-- Raised by `exec` alone, for an instruction without a meaning yet. Safe: it stops where the core goes on. No arm of
  `exec` answers it now. -/
  | notModelled (mnemonic : String)
deriving DecidableEq, Repr

/-- The values of `PHASE` (R29). -/
inductive Phase where
  /-- 0: listening, waiting for a receive-complete signal. -/
  | listenIdle
  /-- 1: listening, read requested, waiting for the read result. -/
  | listenRead
  /-- 2: LoRaWAN frame handed to transmit, waiting for the transmit result. -/
  | lwanTx
  /-- 3: Meshtastic frame handed to transmit, waiting for the transmit result. -/
  | meshTx
deriving DecidableEq, Repr

/-- The faults of R250 (`NONE` is the absence of one). -/
inductive FaultCode where
  | illegalCommand
  | badOperand
  | oversize
  | ctrRange
  | protocol
deriving DecidableEq, Repr

/-- The actions of R214, the core's outputs to the radio. -/
inductive Action where
  /-- `CFG(d)`: apply descriptor d. -/
  | cfg (d : Descriptor)
  /-- `START_RX`: put the radio into receive. -/
  | startRx
  /-- `READ`: read the received frame. -/
  | read
  /-- `TX(F)`: transmit the bytes F, of length `len(F)`. -/
  | tx (frame : Bytes)
deriving DecidableEq, Repr

/-- The state of the core (R20, R39). -/
structure State where
  /-- `KEY_NWK` (R21). -/
  keyNwk : Vector Byte 16
  /-- `KEY_APP` (R21). -/
  keyApp : Vector Byte 16
  /-- `KEY_MESH` (R21). -/
  keyMesh : Vector Byte 16
  /-- `DEVADDR`, register 0x07 (R23). -/
  devAddr : Word
  /-- `NODE_ID`, register 0x08 (R23). -/
  nodeId : Word
  /-- `PKTID`, register 0x02 (R24). -/
  pktId : Word
  /-- `FCNT`, register 0x03 (R25). -/
  fcnt : Half
  /-- `CHIDX`, register 0x04 (R26). -/
  chIdx : BitVec 3
  /-- `PHASE`, register 0x00 (R29). -/
  phase : Phase
  /-- `RXPEND`, register 0x01 (R30). -/
  rxPend : Bool
  /-- `RXBUF` (R31). -/
  rxBuf : Bytes
  /-- `STATUS`, register 0x05 (R35). -/
  status : Byte
  /-- `FAULT`, register 0x06 (R36). -/
  fault : Byte
  /-- The output trace, oldest action first (R39). -/
  trace : List Action
  /-- The model's own: what the command port's result channel carries for the step just taken (R59, R72; DESIGN CHOICE,
  safe, log 2). -/
  result : Option Bytes
  /-- The model's own: the turns still to come, in the order they happen; the order is free (R62), so it is plain data
  that no rule constrains (DESIGN CHOICE, safe, log 1). -/
  agenda : List Turn
deriving DecidableEq, Repr

/-- The state after `EV.RESET` with the default operands 1, 0, 0 (R20, R281), nothing on the agenda. -/
def State.reset : State where
  keyNwk := Config.keyNwk
  keyApp := Config.keyApp
  keyMesh := Config.keyMesh
  devAddr := Config.devAddr
  nodeId := Config.nodeId
  pktId := 1
  fcnt := 0
  chIdx := 0
  phase := .listenIdle
  rxPend := false
  rxBuf := []
  status := 0#8
  fault := 0#8
  trace := [.cfg Config.cfgTempestRx, .startRx]
  result := none
  agenda := []

end Sys2Proof.Machine
end

