-- ==== Sys2Proof/Machine/Flags.lean ====
section
/-! DEFINITION. The fields of `STATUS` (R35): writing one leaves the others as they are. -/

namespace Sys2Proof.Machine

/-- Bit n of `STATUS` becomes b. -/
def writeStatusBit (st : Byte) (n : Nat) (b : Bool) : Byte :=
  (st &&& ~~~(1 <<< n : Byte)) ||| (if b then (1 <<< n : Byte) else 0)

/-- `STATUS.RDFAIL <- b`, bit 0 (R35). -/
def setRdFail (st : Byte) (b : Bool) : Byte := writeStatusBit st 0 b

/-- `STATUS.LWTXFAIL <- b`, bit 1 (R35). -/
def setLwTxFail (st : Byte) (b : Bool) : Byte := writeStatusBit st 1 b

/-- `STATUS.MSTXFAIL <- b`, bit 2 (R35). -/
def setMsTxFail (st : Byte) (b : Bool) : Byte := writeStatusBit st 2 b

end Sys2Proof.Machine
end

