-- ==== Sys2Proof/Machine/Operands.lean ====
section
/-! DEFINITION. The operand forms: byte strings and their slices, byte orders (R12, R53, R54), XOR, and the checks on
operands (R58, R145, R187, R189). -/

namespace Sys2Proof.Machine

/-- `0x00×n` (R12). -/
def zeros (n : Nat) : Bytes := List.replicate n 0

/-- `B[a .. a+n)` (R12), shorter where B ends before. -/
def slice (b : Bytes) (a n : Nat) : Bytes := (b.drop a).take n

/-- `A ⊕ B` (R12); the longer string is truncated to the shorter. -/
def xorBytes (a b : Bytes) : Bytes := List.zipWith (· ^^^ ·) a b

/-- `le16(v)` (R12). -/
def le16 (v : Half) : Bytes := [v.extractLsb' 0 8, v.extractLsb' 8 8]

/-- `le32(v)` (R12). -/
def le32 (v : Word) : Bytes := [v.extractLsb' 0 8, v.extractLsb' 8 8, v.extractLsb' 16 8, v.extractLsb' 24 8]

/-- `be128(B)` (R12): byte 0 is the most significant. -/
def be128 (b : Bytes) : BitVec 128 := BitVec.ofNat 128 (b.foldl (fun n x => 256 * n + x.toNat) 0)

/-- `unbe128(v)` (R12): the 16 bytes whose big-endian reading is v. -/
def unbe128 (v : BitVec 128) : Bytes := (List.range 16).map fun i => v.extractLsb' (8 * (15 - i)) 8

/-- ⌈n / 16⌉, the number of segments of a data string of length n (R140). -/
def blockCount (n : Nat) : Nat := (n + 15) / 16

/-- A key operand has exactly 16 bytes (R58). -/
def keyOk (k : Bytes) : Bool := k.length == 16

/-- A block operand has exactly 16 bytes (R58). -/
def blockOk (p : Bytes) : Bool := p.length == 16

/-- A schedule operand has exactly 176 bytes (R58). -/
def scheduleOk (sched : Bytes) : Bool := sched.length == 176

/-- A payload is not longer than `MAX_PAYLOAD` (R187, R189, R221). -/
def payloadOk (p : Bytes) : Bool := !decide (p.length > Config.maxPayload)

/-- The block index of every segment fits in one byte (R145). -/
def blocksOk (d : Bytes) : Bool := blockCount d.length ≤ 255

end Sys2Proof.Machine
end

