-- ==== Sys2Proof/Machine/Ops.lean ====
section
/-! DEFINITION. The named operations on the state: writing one register, emitting an action, raising a fault, the shape
shared by all commands, reset, reading a register, and taking the next turn. -/

namespace Sys2Proof.Machine

/-- The three outcomes of a step of this machine. -/
abbrev Outcome := Host.Outcome State Fault Refusal

/-- `PKTID <- v` (R13). -/
def State.setPktId (s : State) (v : Word) : State := { s with pktId := v }

/-- `FCNT <- v` (R13). -/
def State.setFcnt (s : State) (v : Half) : State := { s with fcnt := v }

/-- `CHIDX <- v` (R13). -/
def State.setChIdx (s : State) (v : BitVec 3) : State := { s with chIdx := v }

/-- `PHASE <- v` (R13). -/
def State.setPhase (s : State) (v : Phase) : State := { s with phase := v }

/-- `RXPEND <- v` (R13). -/
def State.setRxPend (s : State) (v : Bool) : State := { s with rxPend := v }

/-- `RXBUF <- v` (R13). -/
def State.setRxBuf (s : State) (v : Bytes) : State := { s with rxBuf := v }

/-- `STATUS <- v` (R13). -/
def State.setStatus (s : State) (v : Byte) : State := { s with status := v }

/-- `FAULT <- v` (R13). -/
def State.setFault (s : State) (v : Byte) : State := { s with fault := v }

/-- `emit a`: append the action to the output trace (R13, R39). -/
def State.emit (s : State) (a : Action) : State := { s with trace := s.trace ++ [a] }

/-- What the result channel carries (R72). -/
def State.setResult (s : State) (r : Option Bytes) : State := { s with result := r }

/-- The turns still to come. -/
def State.setAgenda (s : State) (ts : List Turn) : State := { s with agenda := ts }

/-- The encoding of `PHASE` (R29). -/
def Phase.code : Phase → BitVec 2
  | .listenIdle => 0
  | .listenRead => 1
  | .lwanTx => 2
  | .meshTx => 3

/-- The codes `FAULT` holds (R250). -/
def FaultCode.code : FaultCode → Byte
  | .illegalCommand => 0x01#8
  | .badOperand => 0x02#8
  | .oversize => 0x03#8
  | .ctrRange => 0x04#8
  | .protocol => 0x05#8

/-- `raise Fault(c)` (R252): `FAULT` gets the code, no other register is written, no action is appended, and no command
result is returned. The core has no trap entry and no return from one (R258). -/
def raise (c : FaultCode) (s : State) : Outcome := .next ((s.setResult none).setFault c.code)

/-- A step that exists only while no fault is recorded (R211, R253): otherwise the core stays where it is (DEDUCED from
R211's words and P7 of 95_test_vectors.md, unsafe, log 3). -/
def whenRunning (s : State) (k : Outcome) : Outcome := if s.fault = 0#8 then k else .next s

/-- The code of the first check that does not hold, checks in the order of R255. -/
def firstFailure : List (Bool × FaultCode) → Option FaultCode
  | [] => none
  | (ok, c) :: rest => if ok then firstFailure rest else some c

/-- The shape of every command but `REG.READ` (R60, R252, R255): the checks in order, then the result on the result
channel; nothing else is written. -/
def command (checks : List (Bool × FaultCode)) (result : Bytes) (s : State) : Outcome :=
  whenRunning s <|
    match firstFailure checks with
    | some c => raise c s
    | none => .next (s.setResult (some result))

/-- The effect of reset (R281) with the given initial counters: every register and the trace are set, no result is
returned, and the turns still to come are the outside world's and stay. -/
def resetTo (initPktid : Word) (initFcnt : Half) (initChidx : BitVec 3) (s : State) : State where
  keyNwk := Config.keyNwk
  keyApp := Config.keyApp
  keyMesh := Config.keyMesh
  devAddr := Config.devAddr
  nodeId := Config.nodeId
  pktId := initPktid
  fcnt := initFcnt
  chIdx := initChidx
  phase := .listenIdle
  rxPend := false
  rxBuf := []
  status := 0#8
  fault := 0#8
  trace := [.cfg Config.cfgTempestRx, .startRx]
  result := none
  agenda := s.agenda

/-- A register by its number, zero-extended to 32 bits (R20, R227); `none` for an unassigned number. The bits 7:3 of
`STATUS` read as 0 whatever is stored (R35, I26; DEDUCED, safe, log 15). -/
def readReg (s : State) (regno : Byte) : Option Word :=
  match regno.toNat with
  | 0x00 => some (s.phase.code.zeroExtend 32)
  | 0x01 => some (if s.rxPend then 1 else 0)
  | 0x02 => some s.pktId
  | 0x03 => some (s.fcnt.zeroExtend 32)
  | 0x04 => some (s.chIdx.zeroExtend 32)
  | 0x05 => some ((s.status &&& 0x07#8).zeroExtend 32)
  | 0x06 => some (s.fault.zeroExtend 32)
  | 0x07 => some s.devAddr
  | 0x08 => some s.nodeId
  | _ => none

/-- An input word that decodes to the verdict `ILLEGAL_COMMAND` (R75, R251). -/
def illegalCommand (s : State) : Outcome := whenRunning s (raise .illegalCommand s)

/-- The next turn: the first of the agenda, or, when nothing is on it, the core's own step, which is taken whenever it is
enabled (R211). -/
def nextTurn (s : State) : Turn :=
  match s.agenda with
  | [] => .own
  | t :: _ => t

/-- The state in which the next turn runs: the turn is taken off the agenda, and the result channel carries nothing of the
step before (R72: a result is returned in its own step). -/
def afterFetch (s : State) : State := (s.setResult none).setAgenda s.agenda.tail

end Sys2Proof.Machine
end

