-- ==== Sys2Proof/Machine/Aes.lean ====
section
/-! DEFINITION. The block cipher engine (40_block_cipher.md): AES-128 encryption and the commands `AES.KEYEXP`,
`AES.ENCRK` and `AES.ENC`. The state of the cipher is a string of 16 bytes, `s[r + 4c]` row r, column c (R80). -/

namespace Sys2Proof.Machine

/-- Rows 0 to 7 of the S-box (R111). -/
def sboxRowsLow : List Bytes :=
  [ [0x63, 0x7c, 0x77, 0x7b, 0xf2, 0x6b, 0x6f, 0xc5, 0x30, 0x01, 0x67, 0x2b, 0xfe, 0xd7, 0xab, 0x76],
    [0xca, 0x82, 0xc9, 0x7d, 0xfa, 0x59, 0x47, 0xf0, 0xad, 0xd4, 0xa2, 0xaf, 0x9c, 0xa4, 0x72, 0xc0],
    [0xb7, 0xfd, 0x93, 0x26, 0x36, 0x3f, 0xf7, 0xcc, 0x34, 0xa5, 0xe5, 0xf1, 0x71, 0xd8, 0x31, 0x15],
    [0x04, 0xc7, 0x23, 0xc3, 0x18, 0x96, 0x05, 0x9a, 0x07, 0x12, 0x80, 0xe2, 0xeb, 0x27, 0xb2, 0x75],
    [0x09, 0x83, 0x2c, 0x1a, 0x1b, 0x6e, 0x5a, 0xa0, 0x52, 0x3b, 0xd6, 0xb3, 0x29, 0xe3, 0x2f, 0x84],
    [0x53, 0xd1, 0x00, 0xed, 0x20, 0xfc, 0xb1, 0x5b, 0x6a, 0xcb, 0xbe, 0x39, 0x4a, 0x4c, 0x58, 0xcf],
    [0xd0, 0xef, 0xaa, 0xfb, 0x43, 0x4d, 0x33, 0x85, 0x45, 0xf9, 0x02, 0x7f, 0x50, 0x3c, 0x9f, 0xa8],
    [0x51, 0xa3, 0x40, 0x8f, 0x92, 0x9d, 0x38, 0xf5, 0xbc, 0xb6, 0xda, 0x21, 0x10, 0xff, 0xf3, 0xd2] ]

/-- Rows 8 to f of the S-box (R111). -/
def sboxRowsHigh : List Bytes :=
  [ [0xcd, 0x0c, 0x13, 0xec, 0x5f, 0x97, 0x44, 0x17, 0xc4, 0xa7, 0x7e, 0x3d, 0x64, 0x5d, 0x19, 0x73],
    [0x60, 0x81, 0x4f, 0xdc, 0x22, 0x2a, 0x90, 0x88, 0x46, 0xee, 0xb8, 0x14, 0xde, 0x5e, 0x0b, 0xdb],
    [0xe0, 0x32, 0x3a, 0x0a, 0x49, 0x06, 0x24, 0x5c, 0xc2, 0xd3, 0xac, 0x62, 0x91, 0x95, 0xe4, 0x79],
    [0xe7, 0xc8, 0x37, 0x6d, 0x8d, 0xd5, 0x4e, 0xa9, 0x6c, 0x56, 0xf4, 0xea, 0x65, 0x7a, 0xae, 0x08],
    [0xba, 0x78, 0x25, 0x2e, 0x1c, 0xa6, 0xb4, 0xc6, 0xe8, 0xdd, 0x74, 0x1f, 0x4b, 0xbd, 0x8b, 0x8a],
    [0x70, 0x3e, 0xb5, 0x66, 0x48, 0x03, 0xf6, 0x0e, 0x61, 0x35, 0x57, 0xb9, 0x86, 0xc1, 0x1d, 0x9e],
    [0xe1, 0xf8, 0x98, 0x11, 0x69, 0xd9, 0x8e, 0x94, 0x9b, 0x1e, 0x87, 0xe9, 0xce, 0x55, 0x28, 0xdf],
    [0x8c, 0xa1, 0x89, 0x0d, 0xbf, 0xe6, 0x42, 0x68, 0x41, 0x99, 0x2d, 0x0f, 0xb0, 0x54, 0xbb, 0x16] ]

/-- `SBOX[b]` (R111): the entry for 16·h + l is at row h, column l. -/
def sbox (b : Byte) : Byte := ((sboxRowsLow ++ sboxRowsHigh).getD (b.toNat / 16) []).getD (b.toNat % 16) 0

/-- `RCON[1..10]` (R112). -/
def rconTable : Bytes := [0x01, 0x02, 0x04, 0x08, 0x10, 0x20, 0x40, 0x80, 0x1b, 0x36]

/-- `RCON[n]` for 1 ≤ n ≤ 10 (R112). -/
def rcon (n : Nat) : Byte := rconTable.getD (n - 1) 0

/-- `xtime(b)` (R113). -/
def xtime (b : Byte) : Byte := (b <<< 1) ^^^ (if b.getLsbD 7 then 0x1b else 0x00)

/-- Byte i of the cipher's state. -/
def byteAt (s : Bytes) (i : Nat) : Byte := s.getD i 0

/-- SubBytes (R114). -/
def subBytes (s : Bytes) : Bytes := s.map sbox

/-- ShiftRows (R115): `s'[r + 4c] = s[r + 4((c + r) mod 4)]`, with r = i mod 4 and c = i / 4. -/
def shiftRows (s : Bytes) : Bytes :=
  (List.range 16).map fun i => byteAt s (i % 4 + 4 * ((i / 4 + i % 4) % 4))

/-- MixColumns on one column (R116). -/
def mixColumn (a0 a1 a2 a3 : Byte) : Bytes :=
  [ xtime a0 ^^^ (xtime a1 ^^^ a1) ^^^ a2 ^^^ a3,
    a0 ^^^ xtime a1 ^^^ (xtime a2 ^^^ a2) ^^^ a3,
    a0 ^^^ a1 ^^^ xtime a2 ^^^ (xtime a3 ^^^ a3),
    (xtime a0 ^^^ a0) ^^^ a1 ^^^ a2 ^^^ xtime a3 ]

/-- MixColumns (R116). -/
def mixColumns (s : Bytes) : Bytes :=
  (List.range 4).flatMap fun c => mixColumn (byteAt s (4 * c)) (byteAt s (4 * c + 1)) (byteAt s (4 * c + 2)) (byteAt s (4 * c + 3))

/-- AddRoundKey(n) (R117, R81). -/
def addRoundKey (sched : Bytes) (n : Nat) (s : Bytes) : Bytes := xorBytes s (slice sched (16 * n) 16)

/-- A full round (R121). -/
def fullRound (sched : Bytes) (s : Bytes) (n : Nat) : Bytes :=
  addRoundKey sched n (mixColumns (shiftRows (subBytes s)))

/-- `EncryptBlock(S, P)` (R121). -/
def encryptBlock (sched p : Bytes) : Bytes :=
  addRoundKey sched 10 (shiftRows (subBytes
    ((List.range' 1 9).foldl (fullRound sched) (addRoundKey sched 0 p))))

/-- `RotWord` (R118). -/
def rotWord (w : Bytes) : Bytes := w.drop 1 ++ w.take 1

/-- `SubWord` (R118). -/
def subWord (w : Bytes) : Bytes := w.map sbox

/-- What `w[j-4]` is XORed with to make `w[j]` (R120): t is `w[j-1]`. -/
def keyStep (t : Bytes) (j : Nat) : Bytes :=
  if j % 4 = 0 then xorBytes (subWord (rotWord t)) [rcon (j / 4), 0, 0, 0] else t

/-- One turn of the loop of R120: the words so far, with `w[j]` appended. -/
def expandWord (ws : List Bytes) (j : Nat) : List Bytes :=
  ws ++ [xorBytes (ws.getD (j - 4) []) (keyStep (ws.getD (j - 1) []) j)]

/-- The 44 words of the schedule (R120). -/
def keyWords (k : Bytes) : List Bytes :=
  (List.range' 4 40).foldl expandWord ((List.range 4).map fun j => slice k (4 * j) 4)

/-- `KeyExpand(K)` (R120). -/
def keyExpand (k : Bytes) : Bytes := (keyWords k).flatten

/-- `AES(K, P)` (R122): the schedule is derived anew in each call. -/
def aes (k p : Bytes) : Bytes := encryptBlock (keyExpand k) p

/-- `AES.KEYEXP K` (R123). -/
def execAesKeyexp (k : Bytes) (s : State) : Outcome :=
  command [(keyOk k, .badOperand)] (keyExpand k) s

/-- `AES.ENCRK S, P` (R124): any 176 bytes are a schedule. -/
def execAesEncrk (sched p : Bytes) (s : State) : Outcome :=
  command [(scheduleOk sched, .badOperand), (blockOk p, .badOperand)] (encryptBlock sched p) s

/-- `AES.ENC K, P` (R125). -/
def execAesEnc (k p : Bytes) (s : State) : Outcome :=
  command [(keyOk k, .badOperand), (blockOk p, .badOperand)] (aes k p) s

end Sys2Proof.Machine
end

