-- ==== Sys2Proof/Machine/Formats.lean ====
section
/-! DEFINITION. The constant field values (R7, R8) and the layouts of blocks and frames (R82 to R87). -/

namespace Sys2Proof.Machine

/-- `FPORT` (R7). -/
def fPort : Byte := 0x01

/-- `DIR_UP` (R7). -/
def dirUp : Byte := 0x00

/-- `B0_HDR` (R7). -/
def b0Hdr : Byte := 0x49

/-- `A_HDR` (R7). -/
def aHdr : Byte := 0x01

/-- `MESH_DEST` (R7). -/
def meshDest : Word := 0xFFFFFFFF

/-- `CHAN_HASH` (R7). -/
def chanHash : Byte := 0x08

/-- `CMAC_RB` (R7). -/
def cmacRb : Byte := 0x87

/-- `PB_TAG1` (R7). -/
def pbTag1 : Byte := 0x08

/-- `PB_TAG2` (R7). -/
def pbTag2 : Byte := 0x12

/-- `MHDR` (R8, R90). -/
def mhdr : Byte := 0x40

/-- `FCTRL` (R8, R91). -/
def fCtrl : Byte := 0x00

/-- `TEXT_PORT` (R8). -/
def textPort : Word := 1

/-- The initial nonce of the simple scheme (R82). -/
def simpleNonce (pid sid : Word) : Bytes := le32 pid ++ zeros 4 ++ le32 sid ++ zeros 4

/-- The LoRaWAN counter block Aᵢ (R83); the index fits in its byte wherever `blocksOk` holds. -/
def aBlock (dir : Byte) (addr : Word) (fc : Half) (i : Nat) : Bytes :=
  [aHdr] ++ zeros 4 ++ [dir] ++ le32 addr ++ le32 (fc.zeroExtend 32) ++ [0x00] ++ [BitVec.ofNat 8 i]

/-- The MIC preamble block B0 (R84, R184); the length fits in its byte for every admitted payload (R186). -/
def b0Block (addr : Word) (fc : Half) (n : Nat) : Bytes :=
  [b0Hdr] ++ zeros 4 ++ [dirUp] ++ le32 addr ++ le16 fc ++ zeros 2 ++ [0x00] ++ [BitVec.ofNat 8 n]

/-- The loop of R85, at most `fuel` groups: five are enough below 2^32. -/
def varintLoop : Nat → Nat → Bytes
  | 0, _ => []
  | fuel + 1, v =>
    if v / 128 ≠ 0 then (0x80 ||| BitVec.ofNat 8 (v % 128)) :: varintLoop fuel (v / 128)
    else [BitVec.ofNat 8 (v % 128)]

/-- `Varint(v)` (R85), for `v < 2^32`; beyond, where the spec states none, a free value (DESIGN CHOICE, safe, log 10). -/
def varint (v : Nat) : Bytes := if v < 2 ^ 32 then varintLoop 5 v else Config.varintBeyond v

/-- `VarLen(v)` (R86). -/
def varLen (v : Nat) : Nat := (varint v).length

end Sys2Proof.Machine
end

