-- ==== Sys2Proof/Machine/Cmac.lean ====
section
/-! DEFINITION. The message authenticator (42_cmac.md) and the commands `CMAC.SUBKEYS` and `CMAC.TAG`. -/

namespace Sys2Proof.Machine

/-- `Dbl(B)` (R160): byte 15 is the least significant byte of `be128`, so the constant is XORed there. -/
def dbl (b : Bytes) : Bytes :=
  unbe128 ((be128 b <<< 1) ^^^ (if (be128 b).getLsbD 127 then cmacRb.zeroExtend 128 else 0))

/-- The subkey K1 (R161). -/
def cmacK1 (k : Bytes) : Bytes := dbl (aes k (zeros 16))

/-- The subkey K2 (R161). -/
def cmacK2 (k : Bytes) : Bytes := dbl (cmacK1 k)

/-- The number of blocks of a message of length n (R162). -/
def cmacBlockCount (n : Nat) : Nat := max 1 (blockCount n)

/-- The adjusted final block (R162, R93). -/
def cmacLast (k m : Bytes) : Bytes :=
  let last := m.drop (16 * (cmacBlockCount m.length - 1))
  if m.length > 0 ∧ m.length % 16 = 0 then xorBytes last (cmacK1 k)
  else xorBytes (last ++ [0x80] ++ zeros (15 - last.length)) (cmacK2 k)

/-- The blocks of a message, the final one adjusted (R162). -/
def cmacBlocks (k m : Bytes) : List Bytes :=
  ((List.range (cmacBlockCount m.length - 1)).map fun i => slice m (16 * i) 16) ++ [cmacLast k m]

/-- `CMAC(K, M)` (R162). -/
def cmac (k m : Bytes) : Bytes := (cmacBlocks k m).foldl (fun x b => aes k (xorBytes x b)) (zeros 16)

/-- `CMAC.SUBKEYS K` (R164). -/
def execCmacSubkeys (k : Bytes) (s : State) : Outcome :=
  command [(keyOk k, .badOperand)] (cmacK1 k ++ cmacK2 k) s

/-- `CMAC.TAG K, M` (R165). -/
def execCmacTag (k m : Bytes) (s : State) : Outcome :=
  command [(keyOk k, .badOperand)] (cmac k m) s

end Sys2Proof.Machine
end

