-- ==== Sys2Proof/Machine/Ctr.lean ====
section
/-! DEFINITION. The keystream generator (41_keystream.md) and the commands `CTR.SIMPLE` and `CTR.LWAN`. -/

namespace Sys2Proof.Machine

/-- Segment i of a data string, i from 1 (R140). -/
def segment (d : Bytes) (i : Nat) : Bytes := slice d (16 * (i - 1)) 16

/-- The data XORed segment by segment with the keystream blocks `ks 1`, `ks 2`, … (R140); of the last block only the bytes
the segment needs are used. -/
def xorStream (ks : Nat → Bytes) (d : Bytes) : Bytes :=
  (List.range' 1 (blockCount d.length)).flatMap fun i => xorBytes (segment d i) (ks i)

/-- `Inc128(N)` (R142). -/
def inc128 (n : Bytes) : Bytes := unbe128 (be128 n + 1)

/-- The nonce of block i, from 1: the initial nonce after i - 1 increments (R141). -/
def simpleNonceAt (pid sid : Word) (i : Nat) : Bytes := Nat.iterate inc128 (i - 1) (simpleNonce pid sid)

/-- `CtrSimple(K, pid, sid, D)` (R141). -/
def ctrSimple (k : Bytes) (pid sid : Word) (d : Bytes) : Bytes :=
  xorStream (fun i => aes k (simpleNonceAt pid sid i)) d

/-- `CtrLwan(K, dir, addr, fc, D)` (R143). -/
def ctrLwan (k : Bytes) (dir : Byte) (addr : Word) (fc : Half) (d : Bytes) : Bytes :=
  xorStream (fun i => aes k (aBlock dir addr fc i)) d

/-- `CTR.SIMPLE K, PID, SID, D` (R144). -/
def execCtrSimple (k : Bytes) (pid sid : Word) (d : Bytes) (s : State) : Outcome :=
  command [(keyOk k, .badOperand)] (ctrSimple k pid sid d) s

/-- `CTR.LWAN DIR, K, ADDR, FC, D` (R145). -/
def execCtrLwan (dir : Byte) (k : Bytes) (addr : Word) (fc : Half) (d : Bytes) (s : State) : Outcome :=
  command [(keyOk k, .badOperand), (blocksOk d, .ctrRange)] (ctrLwan k dir addr fc d) s

end Sys2Proof.Machine
end

