-- ==== Sys2Proof/Machine/Frames.lean ====
section
/-! DEFINITION. The frame encoders (43_frame_encoders.md) and the commands `PB.ENC`, `LW.BUILD` and `MS.BUILD`. -/

namespace Sys2Proof.Machine

/-- `PbEnc(port, P)` (R180, R87). -/
def pbEnc (port : Word) (p : Bytes) : Bytes :=
  [pbTag1] ++ varint port.toNat ++ [pbTag2] ++ varint p.length ++ p

/-- `MIC(KN, addr, fc, msg)` (R185): the first 4 bytes of the tag. -/
def mic (kn : Bytes) (addr : Word) (fc : Half) (msg : Bytes) : Bytes :=
  (cmac kn (b0Block addr fc msg.length ++ msg)).take 4

/-- The 9 header bytes of the LoRaWAN uplink frame (R88, R183). -/
def lwHeader (addr : Word) (fc : Half) : Bytes := [mhdr] ++ le32 addr ++ [fCtrl] ++ le16 fc ++ [fPort]

/-- `LwBuild(KN, KA, addr, fc, P)` (R183): the MIC covers the encrypted payload. -/
def lwBuild (kn ka : Bytes) (addr : Word) (fc : Half) (p : Bytes) : Bytes :=
  let msg := lwHeader addr fc ++ ctrLwan ka dirUp addr fc p
  msg ++ mic kn addr fc msg

/-- The 16 header bytes of the Meshtastic packet (R89, R188). -/
def msHeader (flags : Byte) (sid pid : Word) : Bytes :=
  le32 meshDest ++ le32 sid ++ le32 pid ++ [flags] ++ [chanHash] ++ zeros 2

/-- `MsBuild(KM, sid, pid, P)` (R188) with the flags byte `MESH_FLAGS` as its first argument. -/
def msBuild (flags : Byte) (km : Bytes) (sid pid : Word) (p : Bytes) : Bytes :=
  msHeader flags sid pid ++ ctrSimple km pid sid (pbEnc textPort p)

/-- `PB.ENC PORT, P` (R181). -/
def execPbEnc (port : Word) (p : Bytes) (s : State) : Outcome := command [] (pbEnc port p) s

/-- `LW.BUILD KN, KA, ADDR, FC, P` (R187). -/
def execLwBuild (kn ka : Bytes) (addr : Word) (fc : Half) (p : Bytes) (s : State) : Outcome :=
  command [(keyOk kn, .badOperand), (keyOk ka, .badOperand), (payloadOk p, .oversize)] (lwBuild kn ka addr fc p) s

/-- `MS.BUILD KM, SID, PID, P` (R189). -/
def execMsBuild (km : Bytes) (sid pid : Word) (p : Bytes) (s : State) : Outcome :=
  command [(keyOk km, .badOperand), (payloadOk p, .oversize)] (msBuild Config.meshFlags km sid pid p) s

end Sys2Proof.Machine
end

