-- ==== Sys2Proof/Machine/Controller.lean ====
section
/-! DEFINITION. The relay cycle controller (44_relay_controller.md): `EV.RXSIG`, `CTL.DISPATCH`, `EV.RDRESP` and
`EV.TXRESP`, with the two hand-offs. -/

namespace Sys2Proof.Machine

/-- Back to Listening with the radio configured for Tempest RX (R221, R225). -/
def resumeListening (s : State) : State :=
  ((s.emit (.cfg Config.cfgTempestRx)).emit .startRx).setPhase .listenIdle

/-- The frame of the LoRaWAN hand-off (R222), with the counters held before the step. -/
def lwanFrame (s : State) : Bytes :=
  lwBuild s.keyNwk.toList s.keyApp.toList s.devAddr s.fcnt s.rxBuf

/-- The LoRaWAN hand-off (R222): both counters are used and then advanced. -/
def lwanHandoff (s : State) : State :=
  ((((s.emit (.cfg (Config.cfgLwanTx s.chIdx.toFin))).emit (.tx (lwanFrame s))).setFcnt (s.fcnt + 1)).setChIdx
    (s.chIdx + 1)).setPhase .lwanTx

/-- The packet of the Meshtastic hand-off (R224), with the packet identifier held before the step. -/
def meshPacket (s : State) : Bytes :=
  msBuild Config.meshFlags s.keyMesh.toList s.nodeId s.pktId s.rxBuf

/-- The Meshtastic hand-off (R224): the packet identifier is used and then advanced. -/
def meshHandoff (s : State) : State :=
  (((s.emit (.cfg Config.cfgMeshTx)).emit (.tx (meshPacket s))).setPktId (s.pktId + 1)).setPhase .meshTx

/-- `EV.RXSIG` (R218): the notification is latched in any phase, and coalesced with a pending one. -/
def execEvRxsig (s : State) : Outcome := whenRunning s (.next (s.setRxPend true))

/-- Whether `CTL.DISPATCH` is enabled (R211, R220). -/
def dispatchEnabled (s : State) : Bool := s.fault == 0#8 && s.phase == .listenIdle && s.rxPend

/-- `CTL.DISPATCH` (R220): the notification is cleared before the read; where the step is not enabled the core stays where
it is (R211). -/
def execCtlDispatch (s : State) : Outcome :=
  if dispatchEnabled s then .next (((s.setRxPend false).emit .read).setPhase .listenRead) else .next s

/-- `EV.RDRESP OK, DATA` (R221), with the length check of R213 on a successful read; RSSI and SNR are discarded (R212). -/
def execEvRdresp (ok : Bool) (data : Bytes) (receivedLength _rssi _snr : Nat) (s : State) : Outcome :=
  whenRunning s <|
    if s.phase ≠ .listenRead then raise .protocol s
    else if ok = false then .next (resumeListening (s.setStatus (setRdFail s.status true)))
    else if receivedLength ≠ data.length then raise .protocol s
    else if payloadOk data = false then raise .oversize s
    else .next (lwanHandoff ((s.setStatus (setRdFail s.status false)).setRxBuf data))

/-- `EV.TXRESP OK` (R223 in `LWAN_TX`, R225 in `MESH_TX`, R216 elsewhere): the result is recorded and never acted on. -/
def execEvTxresp (ok : Bool) (s : State) : Outcome :=
  whenRunning s <|
    match s.phase with
    | .lwanTx => .next (meshHandoff (s.setStatus (setLwTxFail s.status (!ok))))
    | .meshTx => .next (resumeListening ((s.setStatus (setMsTxFail s.status (!ok))).setRxBuf []))
    | .listenIdle => raise .protocol s
    | .listenRead => raise .protocol s

end Sys2Proof.Machine
end

