-- ==== Sys2Proof/Machine/Pseudo.lean ====
section
/-! DEFINITION. The pseudo-instructions of R96, each by the core command it expands to. -/

namespace Sys2Proof.Machine

/-- `PB.TEXT P` (R96). -/
def pbText (p : Bytes) : Instr := .pbEnc textPort p

/-- `CTR.LWUP K, ADDR, FC, D` (R96): uplink Dir. -/
def ctrLwup (k : Bytes) (addr : Word) (fc : Half) (d : Bytes) : Instr := .ctrLwan dirUp k addr fc d

/-- `LW.MIC KN, ADDR, FC, MSG` (R96), which needs `len MSG ≤ 255`; the caller keeps the first 4 bytes of the result. -/
def lwMic (kn : Bytes) (addr : Word) (fc : Half) (msg : Bytes) : Option Instr :=
  if msg.length ≤ 255 then some (.cmacTag kn (b0Block addr fc msg.length ++ msg)) else none

end Sys2Proof.Machine
end

