-- ==== Sys2Proof/Machine/Registers.lean ====
section
/-! DEFINITION. Register access and reset: `REG.READ` (R227) and `EV.RESET` (R280 to R282). -/

namespace Sys2Proof.Machine

/-- `REG.READ REGNO` (R227): an assigned number is read also while a fault is recorded; an unassigned one raises
`BAD_OPERAND`, or has no step in a faulted core (R253). -/
def execRegRead (regno : Byte) (s : State) : Outcome :=
  match readReg s regno with
  | some x => .next (s.setResult (some (le32 x)))
  | none => whenRunning s (raise .badOperand s)

/-- `EV.RESET INIT_PKTID, INIT_FCNT, INIT_CHIDX` (R280, R281): accepted in every state (R282). A value above 7 of the wide
INIT_CHIDX field raises `BAD_OPERAND`, and in a faulted core, where no faulting step is enabled (R253), has no step
(DEDUCED, unsafe, log 4). -/
def execEvReset (initPktid : Word) (initFcnt : Half) (initChidx : Byte) (s : State) : Outcome :=
  if initChidx.toNat ≤ 7 then .next (resetTo initPktid initFcnt (initChidx.setWidth 3) s)
  else whenRunning s (raise .badOperand s)

end Sys2Proof.Machine
end

