-- ==== Sys2Proof/Machine/Dispatch.lean ====
section
/-! DEFINITION. What each instruction does: one arm per constructor of Instr, each a direct call of its meaning. -/

namespace Sys2Proof.Machine

/-- The step of an instruction. -/
def exec (i : Instr) (s : State) : Host.Outcome State Fault Refusal :=
  match i with
  | .aesKeyexp k => Sys2Proof.Machine.execAesKeyexp k s
  | .aesEncrk sched p => Sys2Proof.Machine.execAesEncrk sched p s
  | .aesEnc k p => Sys2Proof.Machine.execAesEnc k p s
  | .ctrSimple k pid sid d => Sys2Proof.Machine.execCtrSimple k pid sid d s
  | .ctrLwan dir k addr fc d => Sys2Proof.Machine.execCtrLwan dir k addr fc d s
  | .cmacSubkeys k => Sys2Proof.Machine.execCmacSubkeys k s
  | .cmacTag k m => Sys2Proof.Machine.execCmacTag k m s
  | .pbEnc port p => Sys2Proof.Machine.execPbEnc port p s
  | .lwBuild kn ka addr fc p => Sys2Proof.Machine.execLwBuild kn ka addr fc p s
  | .msBuild km sid pid p => Sys2Proof.Machine.execMsBuild km sid pid p s
  | .regRead regno => Sys2Proof.Machine.execRegRead regno s
  | .evReset initPktid initFcnt initChidx => Sys2Proof.Machine.execEvReset initPktid initFcnt initChidx s
  | .evRxsig => Sys2Proof.Machine.execEvRxsig s
  | .evRdresp ok data receivedLength rssi snr => Sys2Proof.Machine.execEvRdresp ok data receivedLength rssi snr s
  | .evTxresp ok => Sys2Proof.Machine.execEvTxresp ok s
  | .ctlDispatch => Sys2Proof.Machine.execCtlDispatch s

end Sys2Proof.Machine
end

