-- ==== Sys2Proof/Machine/Step.lean ====
section
/-! DEFINITION. One step of the core: the next turn is decoded and run, or raises `ILLEGAL_COMMAND`. -/

namespace Sys2Proof.Machine

/-- One step (R62): a turn that decodes runs as its instruction, and a word that does not raises `ILLEGAL_COMMAND` (R75). -/
def step (s : State) : Host.Outcome State Fault Refusal :=
  match decodeTurn (nextTurn s) with
  | .ok i => exec i (afterFetch s)
  | .error _ => illegalCommand (afterFetch s)

/-- `s` with the turn of a word of spec/opcode_table.json placed first on the agenda, so that the next step takes it (log
13). -/
def State.withFetchWord (s : State) (nbits w : Nat) : State := s.setAgenda (tableTurn nbits w :: s.agenda)

end Sys2Proof.Machine
end

