-- ==== Sys2Proof/WellFormed.lean ====
section
/-! DEFINITION. Well-formed instructions: the exact widths of R72 (lengths of the fixed-length operands, the 3-bit
INIT_CHIDX, an assigned register number, agreeing lengths). -/

namespace Sys2Proof

/-- The widths R72 gives the operands of each code. -/
def Instr.wellFormed : Instr → Bool
  | .aesKeyexp k => k.length == 16
  | .aesEncrk sched p => sched.length == 176 && p.length == 16
  | .aesEnc k p => k.length == 16 && p.length == 16
  | .ctrSimple k _ _ _ => k.length == 16
  | .ctrLwan _ k _ _ _ => k.length == 16
  | .cmacSubkeys k => k.length == 16
  | .cmacTag k _ => k.length == 16
  | .pbEnc _ _ => true
  | .lwBuild kn ka _ _ _ => kn.length == 16 && ka.length == 16
  | .msBuild km _ _ _ => km.length == 16
  | .regRead regno => regno.toNat ≤ 8
  | .evReset _ _ initChidx => initChidx.toNat ≤ 7
  | .evRxsig => true
  | .evRdresp _ data receivedLength _ _ => receivedLength == data.length
  | .evTxresp _ => true
  | .ctlDispatch => true

/-- `i` has the operand widths of R72. -/
abbrev WellFormed (i : Instr) : Prop := i.wellFormed = true

end Sys2Proof
end

