-- ==== Sys2Proof/Safety.lean ====
section
/-! DEFINITION. What counts as a safe run and as its end (R228, R253), and the invariants of the core that claims use. -/

namespace Sys2Proof.Machine

/-- No fault is recorded (R36): the premise of a claim about what the core computes (R253). -/
abbrev State.Safe (s : State) : Prop := s.fault = 0#8

/-- A cycle boundary (R228): no internal step is enabled and the core waits for no radio answer. -/
abbrev State.AtCycleBoundary (s : State) : Prop := s.fault = 0#8 ∧ s.phase = .listenIdle ∧ s.rxPend = false

/-- The keys and identities hold their provisioning parameters (R21, R23). -/
structure State.Provisioned (s : State) : Prop where
  keyNwk : s.keyNwk = Config.keyNwk
  keyApp : s.keyApp = Config.keyApp
  keyMesh : s.keyMesh = Config.keyMesh
  devAddr : s.devAddr = Config.devAddr
  nodeId : s.nodeId = Config.nodeId

/-- What the registers always satisfy: the provisioned values (R21, R23), the reserved bits of `STATUS` (R35), an assigned
code in `FAULT` (R250), and the scope and the bound of `RXBUF` (R31, R286). -/
structure State.RegistersLegal (s : State) : Prop where
  provisioned : s.Provisioned
  statusReserved : s.status &&& 0xF8#8 = 0#8
  faultAssigned : s.fault.toNat ≤ 5
  bufferBound : s.rxBuf.length ≤ Config.maxPayload
  bufferScope : s.phase = .listenIdle ∨ s.phase = .listenRead → s.rxBuf = []

/-- The descriptor of the last `CFG` action of a trace: the radio's active configuration as the core asked for it. -/
def lastCfg : List Action → Option Descriptor
  | [] => none
  | .cfg d :: rest => (lastCfg rest).or (some d)
  | _ :: rest => lastCfg rest

/-- The radio configuration each phase needs (R210): while the LoRaWAN frame is being sent it is the one of the channel
held before `CHIDX` advanced (R222). -/
def phaseCfg (s : State) : Descriptor :=
  match s.phase with
  | .listenIdle => Config.cfgTempestRx
  | .listenRead => Config.cfgTempestRx
  | .lwanTx => Config.cfgLwanTx (s.chIdx - 1).toFin
  | .meshTx => Config.cfgMeshTx

/-- Whether the last action of a trace is the request whose answer the phase waits for (R210, R215): `START_RX` in
`LISTEN_IDLE`, `READ` in `LISTEN_READ`, a `TX` in the two transmit phases. -/
def requestMatches (p : Phase) (a : Option Action) : Bool :=
  match p, a with
  | .listenIdle, some .startRx => true
  | .listenRead, some .read => true
  | .lwanTx, some (.tx _) => true
  | .meshTx, some (.tx _) => true
  | _, _ => false

/-- Whether every `TX` of a list of actions stands directly after a `CFG` (R226); the flag says whether the action before
the list is one. -/
def txFollowsCfg : Bool → List Action → Bool
  | _, [] => true
  | _, .cfg _ :: rest => txFollowsCfg true rest
  | afterCfg, .tx _ :: rest => afterCfg && txFollowsCfg false rest
  | _, .startRx :: rest => txFollowsCfg false rest
  | _, .read :: rest => txFollowsCfg false rest

/-- What the trace always satisfies: the radio is configured for the phase (R210, R226), the last action is the request
the phase waits on (R215), and every `TX` follows its `CFG` (R226). -/
structure State.TraceLegal (s : State) : Prop where
  radioConfigured : lastCfg s.trace = some (phaseCfg s)
  requestOutstanding : requestMatches s.phase s.trace.getLast? = true
  txConfigured : txFollowsCfg false s.trace = true

/-- A code that R72 assigns to nothing: the list of R75. -/
def unassignedCode (c : Byte) : Bool :=
  c == 0x00#8 || (0x04#8 ≤ c && c ≤ 0x0F#8) || (0x12#8 ≤ c && c ≤ 0x1F#8) || (0x22#8 ≤ c && c ≤ 0x2F#8) || (0x33#8 ≤ c && c ≤ 0x3F#8) ||
    (0x41#8 ≤ c && c ≤ 0x7F#8) || (0x84#8 ≤ c && c ≤ 0xBF#8) || 0xC1#8 ≤ c

/-- A code outside the range of the port it arrived on (R71, R75). -/
def outsidePort (port : Port) (c : Byte) : Bool :=
  match port with
  | .command => !(0x01#8 ≤ c && c ≤ 0x7F#8)
  | .event => !(0x80#8 ≤ c && c ≤ 0xBF#8)

/-- An `IMM8` that is nonzero where R73 requires zero, or whose bits 7:1 are in `EV.RDRESP` or `EV.TXRESP` (R75). -/
def immDisallowed (c v : Byte) : Bool :=
  if c = 0x11#8 ∨ c = 0x40#8 then false
  else if c = 0x82#8 ∨ c = 0x83#8 then v.extractLsb' 1 7 != 0#7
  else v != 0#8

/-- A word that R75 calls illegal on a port. -/
def illegalWord (port : Port) (w : Word) : Bool :=
  rsvField w != 0#16 || immDisallowed (codeField w) (immField w) || unassignedCode (codeField w) ||
    outsidePort port (codeField w) || codeField w == 0xC0#8

/-- The product in GF(2⁸), which R111 and R113 speak of: the sum of the doublings of x that the bits of y select. -/
def gfMul (x y : Byte) : Byte :=
  (List.range 8).foldr (fun i acc => if y.getLsbD i then Nat.iterate xtime i x ^^^ acc else acc) 0x00

/-- A command of the command port (R71), as against an event and the internal step. -/
def isCommand : Instr → Bool
  | .aesKeyexp _ => true
  | .aesEncrk _ _ => true
  | .aesEnc _ _ => true
  | .ctrSimple _ _ _ _ => true
  | .ctrLwan _ _ _ _ _ => true
  | .cmacSubkeys _ => true
  | .cmacTag _ _ => true
  | .pbEnc _ _ => true
  | .lwBuild _ _ _ _ _ => true
  | .msBuild _ _ _ _ => true
  | .regRead _ => true
  | .evReset _ _ _ => false
  | .evRxsig => false
  | .evRdresp _ _ _ _ _ => false
  | .evTxresp _ => false
  | .ctlDispatch => false

/-- A `REG.READ` (R227). -/
def isRegRead : Instr → Bool
  | .regRead _ => true
  | _ => false

/-- An `EV.RESET` (R280). -/
def isReset : Instr → Bool
  | .evReset _ _ _ => true
  | _ => false

/-- What an instruction must satisfy in a state, beyond the widths of R72, so that no cause of R251 arises: the host keeps
the payload ceiling (R287) and the block bound of `CTR.LWAN` (R145), and the radio answers only a request that is waiting
for its answer, with at most `MAX_PAYLOAD` bytes (R215, R287). -/
def dutiful (s : State) : Instr → Prop
  | .aesKeyexp _ => True
  | .aesEncrk _ _ => True
  | .aesEnc _ _ => True
  | .ctrSimple _ _ _ _ => True
  | .ctrLwan _ _ _ _ d => blockCount d.length ≤ 255
  | .cmacSubkeys _ => True
  | .cmacTag _ _ => True
  | .pbEnc _ _ => True
  | .lwBuild _ _ _ _ p => p.length ≤ Config.maxPayload
  | .msBuild _ _ _ p => p.length ≤ Config.maxPayload
  | .regRead _ => True
  | .evReset _ _ _ => True
  | .evRxsig => True
  | .evRdresp ok data _ _ _ => s.phase = .listenRead ∧ (ok = true → data.length ≤ Config.maxPayload)
  | .evTxresp _ => s.phase = .lwanTx ∨ s.phase = .meshTx
  | .ctlDispatch => True

end Sys2Proof.Machine
end

