-- ==== Sys2Proof/Certificates/Slice0/Obligations.lean ====
section
/-! DEFINITION. The statements about the core for the provers. A docstring names the rules of spec/ that a statement
formalises; where a rule or a clause of it is the spec's own decision (D<n> of 92_eei_decisions.md) or its own inference, or
rests on an entry of the assumption log, the docstring says so. -/

open Sys2Proof Sys2Proof.Machine

/-! ### Decoding and the step -/

/-- Decoding the encoding of an instruction gives it back, with every operand at every value (R70 to R76, which the spec
marks as its decision D2; the operand record's layout is log 11). -/
def Obligations.DecodeEncodeAgree : Prop := ∀ i : Instr, decodeTurn (encode i) = .ok i

/-- A word that decodes to an instruction is, on that port, the word the encoder gives that instruction, whatever operand
record came with it (R74, R76; decision D2). -/
def Obligations.DecodedWordHasOneMeaning : Prop :=
  ∀ (port : Port) (w : Word) (o : Operands) (i : Instr), decode port w o = .ok i →
    ∃ o', encode i = .input port w o' ∧ decode port w o' = .ok i

/-- The words the decoder refuses are exactly the illegal ones of R75, with any operand record (decision D18). -/
def Obligations.RefusedWordsAreThoseOfR75 : Prop :=
  ∀ (port : Port) (w : Word) (o : Operands), (∃ e, decode port w o = .error e) ↔ illegalWord port w = true

/-- An illegal input word raises `ILLEGAL_COMMAND`: `FAULT` is 0x01, nothing else is written and no result is returned
(R75, R251, R252; decisions D4, D18); in a faulted core it has no step (R253; log 3). -/
def Obligations.IllegalWordRaisesIllegalCommand : Prop :=
  ∀ (s : State) (port : Port) (w : Word) (o : Operands) (rest : List Turn), illegalWord port w = true →
    s.agenda = .input port w o :: rest →
    (s.fault = 0#8 → step s = .next { s with fault := 0x01#8, result := none, agenda := rest }) ∧
    (s.fault ≠ 0#8 → step s = .next { s with result := none, agenda := rest })

/-- A step runs the instruction its turn decodes to, on the state with the turn taken off the agenda and the result channel
cleared; with nothing on the agenda it is the core's own step (R59, R62, R211; the agenda and the result channel are the
model's, log 1 and log 2). -/
def Obligations.StepRunsTheDecodedTurn : Prop :=
  ∀ s : State,
    (∀ (u : Turn) (rest : List Turn) (i : Instr), s.agenda = u :: rest → decodeTurn u = .ok i →
      step s = exec i { s with result := none, agenda := rest }) ∧
    (s.agenda = [] → step s = exec .ctlDispatch { s with result := none })

/-- Words written out from R70 to R74 and V60 of 95_test_vectors.md, one or more of each family, decode to their
instructions, and illegal ones are refused (decision D2). -/
def Obligations.SpecWordsDecode : Prop :=
  ∀ o : Operands,
    decode .command 0x00000001 o = .ok (.aesKeyexp o.bytes1) ∧
    decode .command 0x00000111 o = .ok (.ctrLwan 0x01 o.bytes1 o.word1 o.half o.bytes2) ∧
    decode .command 0x00000021 o = .ok (.cmacTag o.bytes1 o.bytes2) ∧
    decode .command 0x00000030 o = .ok (.pbEnc o.word1 o.bytes1) ∧
    decode .command 0x00000340 o = .ok (.regRead 0x03) ∧
    decode .event 0x00000182 o = .ok (.evRdresp true o.bytes1 o.length o.rssi o.snr) ∧
    decode .event 0x00000083 o = .ok (.evTxresp false) ∧
    decode .command 0x00010001 o = .error .reservedNotZero ∧
    decode .command 0x00000004 o = .error .codeUnassigned ∧
    decode .command 0x00000101 o = .error .immNotAllowed ∧
    decode .event 0x00000282 o = .error .immNotAllowed ∧
    decode .command 0x00000080 o = .error .wrongPort ∧
    decode .event 0x00000001 o = .error .wrongPort ∧
    decode .command 0x000000C0 o = .error .internalCode ∧
    decode .event 0x000000C0 o = .error .internalCode

/-! ### Block cipher engine -/

/-- `AES.KEYEXP`, code 0x01 (R123; its length fault is decision D19): in a core without a fault, a 16-byte key returns its
schedule and nothing else changes; a key of any other length raises `BAD_OPERAND` and nothing else changes. -/
def Obligations.AesKeyexpReturnsTheSchedule : Prop :=
  (∀ o : Operands, decode .command 0x00000001 o = .ok (.aesKeyexp o.bytes1)) ∧
  ∀ (k : Bytes) (s : State), s.fault = 0#8 →
    (k.length = 16 → exec (.aesKeyexp k) s = .next { s with result := some (keyExpand k) }) ∧
    (k.length ≠ 16 → exec (.aesKeyexp k) s = .next { s with fault := 0x02#8, result := none })

/-- `AES.ENCRK`, code 0x02 (R124; any 176 bytes are a schedule, decision D39; the length fault is D19): in a core without a
fault, a 176-byte schedule and a 16-byte block return the block encrypted under that schedule and nothing else changes; any
other length raises `BAD_OPERAND` and nothing else changes. `EncryptBlock` byte by byte (R121, R114 to R117): AddRoundKey(0),
nine rounds of SubBytes, ShiftRows, MixColumns and AddRoundKey(n), and a last round of SubBytes, ShiftRows and
AddRoundKey(10); what the source does not print of the rounds is general knowledge of the spec (G4 to G6, G8). -/
def Obligations.AesEncrkReturnsTheCiphertext : Prop :=
  (∀ o : Operands, decode .command 0x00000002 o = .ok (.aesEncrk o.bytes1 o.bytes2)) ∧
  (∀ (sched p : Bytes) (s : State), s.fault = 0#8 →
    (sched.length = 176 → p.length = 16 →
      exec (.aesEncrk sched p) s = .next { s with result := some (encryptBlock sched p) }) ∧
    (sched.length ≠ 176 ∨ p.length ≠ 16 →
      exec (.aesEncrk sched p) s = .next { s with fault := 0x02#8, result := none })) ∧
  ∀ sched p : Bytes, sched.length = 176 → p.length = 16 →
    ∃ st : Nat → Bytes, (∀ n, n ≤ 10 → (st n).length = 16) ∧ encryptBlock sched p = st 10 ∧
      (∀ i, i < 16 → (st 0).getD i 0 = p.getD i 0 ^^^ sched.getD i 0) ∧
      (∀ n c, 1 ≤ n → n ≤ 9 → c < 4 → ∀ a : Nat → Byte,
        (∀ r, r < 4 → a r = sbox ((st (n - 1)).getD (r + 4 * ((c + r) % 4)) 0)) →
        (st n).getD (4 * c) 0 =
          xtime (a 0) ^^^ (xtime (a 1) ^^^ a 1) ^^^ a 2 ^^^ a 3 ^^^ sched.getD (16 * n + 4 * c) 0 ∧
        (st n).getD (4 * c + 1) 0 =
          a 0 ^^^ xtime (a 1) ^^^ (xtime (a 2) ^^^ a 2) ^^^ a 3 ^^^ sched.getD (16 * n + 4 * c + 1) 0 ∧
        (st n).getD (4 * c + 2) 0 =
          a 0 ^^^ a 1 ^^^ xtime (a 2) ^^^ (xtime (a 3) ^^^ a 3) ^^^ sched.getD (16 * n + 4 * c + 2) 0 ∧
        (st n).getD (4 * c + 3) 0 =
          (xtime (a 0) ^^^ a 0) ^^^ a 1 ^^^ a 2 ^^^ xtime (a 3) ^^^ sched.getD (16 * n + 4 * c + 3) 0) ∧
      (∀ r c, r < 4 → c < 4 → (st 10).getD (r + 4 * c) 0 =
        sbox ((st 9).getD (r + 4 * ((c + r) % 4)) 0) ^^^ sched.getD (160 + r + 4 * c) 0)

/-- `AES.ENC`, code 0x03 (R125): in a core without a fault, a 16-byte key and a 16-byte block return `AES(K, P)`, which is
`EncryptBlock` under the key's schedule (R122), and nothing else changes; any other length raises `BAD_OPERAND` and nothing
else changes. -/
def Obligations.AesEncReturnsTheCiphertext : Prop :=
  (∀ o : Operands, decode .command 0x00000003 o = .ok (.aesEnc o.bytes1 o.bytes2)) ∧
  (∀ k p : Bytes, aes k p = encryptBlock (keyExpand k) p) ∧
  ∀ (k p : Bytes) (s : State), s.fault = 0#8 →
    (k.length = 16 → p.length = 16 → exec (.aesEnc k p) s = .next { s with result := some (aes k p) }) ∧
    (k.length ≠ 16 ∨ p.length ≠ 16 → exec (.aesEnc k p) s = .next { s with fault := 0x02#8, result := none })

/-- The schedule of a 16-byte key is 176 bytes that begin with the key, and each word after the fourth follows the
recurrence of R120 with the word functions of R118, written out byte by byte; the spec takes both from FIPS-197 (general
knowledge G6 and G7). -/
def Obligations.KeyExpansionFollowsTheRecurrence : Prop :=
  ∀ k : Bytes, k.length = 16 →
    (keyExpand k).length = 176 ∧ (keyExpand k).take 16 = k ∧
    ∀ j b, 4 ≤ j → j < 44 → b < 4 →
      (keyExpand k).getD (4 * j + b) 0 =
        (keyExpand k).getD (4 * (j - 4) + b) 0 ^^^
          (if j % 4 = 0 then
            sbox ((keyExpand k).getD (4 * (j - 1) + (b + 1) % 4) 0) ^^^ (if b = 0 then rcon (j / 4) else 0x00)
          else (keyExpand k).getD (4 * (j - 1) + b) 0)

/-- `xtime` is doubling modulo x⁸+x⁴+x³+x+1 (R113); the round constants begin with 0x01 and each is `xtime` of the one before
(R112); the S-box maps a byte to the affine map of its inverse in GF(2⁸), 0 having the inverse 0 (R111), and maps no two bytes
to one (R127). The tables and the constant 0x1b are general knowledge of the spec (G1 to G3). -/
def Obligations.SboxIsAPermutation : Prop :=
  (∀ b : Byte, (xtime b).toNat = if b.toNat < 128 then 2 * b.toNat else (2 * b.toNat) ^^^ 0x11B) ∧
  rcon 1 = 0x01 ∧ (∀ j, 1 ≤ j → j ≤ 9 → rcon (j + 1) = xtime (rcon j)) ∧
  (∀ x : Byte, ∃ y : Byte, (if x = 0x00 then y = 0x00 else gfMul x y = 0x01) ∧
    sbox x = y ^^^ y.rotateLeft 1 ^^^ y.rotateLeft 2 ^^^ y.rotateLeft 3 ^^^ y.rotateLeft 4 ^^^ 0x63) ∧
  Function.Injective sbox

/-- Under every 176-byte schedule, `EncryptBlock` maps no two blocks to one (R127, marked there as general knowledge G9). -/
def Obligations.EncryptBlockIsInjective : Prop :=
  ∀ sched p q : Bytes, sched.length = 176 → p.length = 16 → q.length = 16 →
    encryptBlock sched p = encryptBlock sched q → p = q

/-! ### Keystream generator -/

/-- `CTR.SIMPLE`, code 0x10 (R144): in a core without a fault, a 16-byte key returns `CtrSimple(K, PID, SID, D)` of data of
any length and nothing else changes; a key of any other length raises `BAD_OPERAND` and nothing else changes. -/
def Obligations.CtrSimpleReturnsTheStream : Prop :=
  (∀ o : Operands, decode .command 0x00000010 o = .ok (.ctrSimple o.bytes1 o.word1 o.word2 o.bytes2)) ∧
  ∀ (k : Bytes) (pid sid : Word) (d : Bytes) (s : State), s.fault = 0#8 →
    (k.length = 16 → exec (.ctrSimple k pid sid d) s = .next { s with result := some (ctrSimple k pid sid d) }) ∧
    (k.length ≠ 16 → exec (.ctrSimple k pid sid d) s = .next { s with fault := 0x02#8, result := none })

/-- `CTR.LWAN`, code 0x11 with Dir in `IMM8` (R145; the fault past 255 blocks is decision D20, the free Dir byte D28): in a
core without a fault, a 16-byte key and data of at most 255 blocks, which are 4080 bytes, return `CtrLwan` and nothing else
changes; longer data raises `CTR_RANGE`; a key of any other length raises `BAD_OPERAND` first (R255). -/
def Obligations.CtrLwanReturnsTheStream : Prop :=
  (∀ (dir : Byte) (o : Operands),
    decode .command (wordOf 0x11 dir) o = .ok (.ctrLwan dir o.bytes1 o.word1 o.half o.bytes2)) ∧
  ∀ (dir : Byte) (k : Bytes) (addr : Word) (fc : Half) (d : Bytes) (s : State), s.fault = 0#8 →
    (k.length = 16 → d.length ≤ 4080 →
      exec (.ctrLwan dir k addr fc d) s = .next { s with result := some (ctrLwan k dir addr fc d) }) ∧
    (k.length = 16 → 4080 < d.length →
      exec (.ctrLwan dir k addr fc d) s = .next { s with fault := 0x04#8, result := none }) ∧
    (k.length ≠ 16 → exec (.ctrLwan dir k addr fc d) s = .next { s with fault := 0x02#8, result := none })

/-- Both streams have the data's length, and their segment i is the data's segment i XORed with the bytes of keystream block
i that it needs, the rest of the block discarded (R140): in the simple scheme block i encrypts the nonce after i - 1
increments (R141), in the LoRaWAN scheme it encrypts the counter block whose last byte is i (R143). -/
def Obligations.StreamsXorBlockByBlock : Prop :=
  ∀ (k : Bytes) (d : Bytes), k.length = 16 →
    (∀ pid sid : Word,
      (ctrSimple k pid sid d).length = d.length ∧
      simpleNonceAt pid sid 1 = le32 pid ++ [0, 0, 0, 0] ++ le32 sid ++ [0, 0, 0, 0] ∧
      (∀ i, 1 ≤ i → simpleNonceAt pid sid (i + 1) = inc128 (simpleNonceAt pid sid i)) ∧
      ∀ i, 1 ≤ i → i ≤ blockCount d.length →
        slice (ctrSimple k pid sid d) (16 * (i - 1)) 16 =
          xorBytes (slice d (16 * (i - 1)) 16) (aes k (simpleNonceAt pid sid i))) ∧
    (∀ (dir : Byte) (addr : Word) (fc : Half), blockCount d.length ≤ 255 →
      (ctrLwan k dir addr fc d).length = d.length ∧
      ∀ i, 1 ≤ i → i ≤ blockCount d.length →
        slice (ctrLwan k dir addr fc d) (16 * (i - 1)) 16 =
          xorBytes (slice d (16 * (i - 1)) 16)
            (aes k ([0x01, 0, 0, 0, 0, dir] ++ le32 addr ++ le16 fc ++ [0, 0, 0, BitVec.ofNat 8 i])))

/-- Each scheme applied twice gives the data back (R146, an inference the spec marks as its own). -/
def Obligations.StreamsAreSymmetric : Prop :=
  ∀ (k : Bytes) (d : Bytes), k.length = 16 →
    (∀ pid sid : Word, ctrSimple k pid sid (ctrSimple k pid sid d) = d) ∧
    (∀ (dir : Byte) (addr : Word) (fc : Half), blockCount d.length ≤ 255 →
      ctrLwan k dir addr fc (ctrLwan k dir addr fc d) = d)

/-- The stream of the first n bytes of the data is the first n bytes of its stream (R147, an inference the spec marks as its
own). -/
def Obligations.StreamsRespectBeginnings : Prop :=
  ∀ (k : Bytes) (d : Bytes) (n : Nat), k.length = 16 →
    (∀ pid sid : Word, ctrSimple k pid sid (d.take n) = (ctrSimple k pid sid d).take n) ∧
    (∀ (dir : Byte) (addr : Word) (fc : Half), blockCount d.length ≤ 255 →
      ctrLwan k dir addr fc (d.take n) = (ctrLwan k dir addr fc d).take n)

/-- `Inc128` adds one to the last byte, carries through bytes 0xFF toward byte 0, and wraps from all 0xFF to zero (R142; the
wrap is decision D21). -/
def Obligations.NonceIncrementCarries : Prop :=
  (∀ (front : Bytes) (x : Byte) (m : Nat), front.length + 1 + m = 16 → x ≠ 0xFF →
    inc128 (front ++ [x] ++ List.replicate m 0xFF) = front ++ [x + 1] ++ List.replicate m 0x00) ∧
  inc128 (List.replicate 16 0xFF) = List.replicate 16 0x00

/-! ### Message authenticator -/

/-- `CMAC.SUBKEYS`, code 0x20 (R164, a command of the spec's own, decision D38): in a core without a fault, a 16-byte key
returns K1 then K2, the doubled and twice doubled encryption of sixteen zero bytes (R161), and nothing else changes; a key of
any other length raises `BAD_OPERAND` and nothing else changes. -/
def Obligations.CmacSubkeysReturnsBothSubkeys : Prop :=
  (∀ o : Operands, decode .command 0x00000020 o = .ok (.cmacSubkeys o.bytes1)) ∧
  ∀ (k : Bytes) (s : State), s.fault = 0#8 →
    (k.length = 16 → exec (.cmacSubkeys k) s =
      .next { s with result := some (dbl (aes k (zeros 16)) ++ dbl (dbl (aes k (zeros 16)))) }) ∧
    (k.length ≠ 16 → exec (.cmacSubkeys k) s = .next { s with fault := 0x02#8, result := none })

/-- `CMAC.TAG`, code 0x21 (R165): in a core without a fault, a 16-byte key returns `CMAC(K, M)` of a message of any length
and nothing else changes; a key of any other length raises `BAD_OPERAND` and nothing else changes. -/
def Obligations.CmacTagReturnsTheTag : Prop :=
  (∀ o : Operands, decode .command 0x00000021 o = .ok (.cmacTag o.bytes1 o.bytes2)) ∧
  ∀ (k m : Bytes) (s : State), s.fault = 0#8 →
    (k.length = 16 → exec (.cmacTag k m) s = .next { s with result := some (cmac k m) }) ∧
    (k.length ≠ 16 → exec (.cmacTag k m) s = .next { s with fault := 0x02#8, result := none })

/-- `Dbl` byte by byte (R160): each byte takes the top bit of the next one, the last takes 0, and 0x87 is XORed into the last
byte exactly if the top bit of byte 0 was 1. -/
def Obligations.DoublingShiftsAndReduces : Prop :=
  ∀ b : Bytes, b.length = 16 →
    (dbl b).length = 16 ∧
    (∀ i, i < 15 → (dbl b).getD i 0 = (b.getD i 0 <<< 1) ||| (b.getD (i + 1) 0 >>> 7)) ∧
    (dbl b).getD 15 0 = (b.getD 15 0 <<< 1) ^^^ (if (b.getD 0 0).getLsbD 7 then 0x87 else 0x00)

/-- The tag of a message by its length (R162, R93): one block or less; two blocks; and of a longer message the CBC chain,
said by carrying the encryption of the first block into the second. The final block, whole, takes K1, and padded takes K2
(R161). -/
def Obligations.CmacChainsItsBlocks : Prop :=
  ∀ k m : Bytes, k.length = 16 →
    (cmac k m).length = 16 ∧
    (m.length < 16 → cmac k m =
      aes k (xorBytes (m ++ [0x80] ++ zeros (15 - m.length)) (dbl (dbl (aes k (zeros 16)))))) ∧
    (m.length = 16 → cmac k m = aes k (xorBytes m (dbl (aes k (zeros 16))))) ∧
    (16 < m.length → m.length < 32 → cmac k m =
      aes k (xorBytes (aes k (m.take 16))
        (xorBytes (m.drop 16 ++ [0x80] ++ zeros (31 - m.length)) (dbl (dbl (aes k (zeros 16))))))) ∧
    (m.length = 32 → cmac k m =
      aes k (xorBytes (aes k (m.take 16)) (xorBytes (m.drop 16) (dbl (aes k (zeros 16)))))) ∧
    (32 < m.length → cmac k m = cmac k (xorBytes (aes k (m.take 16)) (slice m 16 16) ++ m.drop 32))

/-! ### Frame encoders -/

/-- `PB.ENC`, code 0x30: in a core without a fault it returns `PbEnc(PORT, P)` as R180 lays it out, port field first and
payload field second, both always present, for every port number and payload, and nothing else changes (the varint of a
payload length of 2^32 or more is the free value of log 10). -/
def Obligations.PbEncReturnsTheMicroEncoding : Prop :=
  (∀ o : Operands, decode .command 0x00000030 o = .ok (.pbEnc o.word1 o.bytes1)) ∧
  ∀ (port : Word) (p : Bytes) (s : State), s.fault = 0#8 →
    exec (.pbEnc port p) s =
      .next { s with result := some ([0x08] ++ varint port.toNat ++ [0x12] ++ varint p.length ++ p) }

/-- The bytes of a varint carry the number in 7-bit groups, least significant first; bit 7 is set in all but the last; and
the form is the shortest, its last group not zero unless the number is (R85; the place of the continuation bit is general
knowledge G15, the shortest form decision D17); its length by thresholds is R86, an inference the spec marks as its own. -/
def Obligations.VarintCarriesTheNumber : Prop :=
  ∀ v, v < 2 ^ 32 →
    (varint v).foldr (fun b n => (b &&& 0x7F).toNat + 128 * n) 0 = v ∧
    (∃ front last, varint v = front ++ [last] ∧ (∀ b ∈ front, b.getLsbD 7 = true) ∧ last.getLsbD 7 = false ∧
      (v ≠ 0 → last ≠ 0x00) ∧ (v = 0 → front = [])) ∧
    varLen v = if v < 2 ^ 7 then 1 else if v < 2 ^ 14 then 2 else if v < 2 ^ 21 then 3 else if v < 2 ^ 28 then 4 else 5

/-- `LW.BUILD`, code 0x31 (R187; `OVERSIZE` is decision D16): in a core without a fault, two 16-byte keys and a payload of at
most `MAX_PAYLOAD` bytes return the LoRaWAN frame and nothing else changes; a longer payload raises `OVERSIZE`; a key of any
other length raises `BAD_OPERAND` first (R255). -/
def Obligations.LwBuildReturnsTheFrame : Prop :=
  (∀ o : Operands, decode .command 0x00000031 o = .ok (.lwBuild o.bytes1 o.bytes2 o.word1 o.half o.bytes3)) ∧
  ∀ (kn ka : Bytes) (addr : Word) (fc : Half) (p : Bytes) (s : State), s.fault = 0#8 →
    (kn.length = 16 → ka.length = 16 → p.length ≤ Config.maxPayload →
      exec (.lwBuild kn ka addr fc p) s = .next { s with result := some (lwBuild kn ka addr fc p) }) ∧
    (kn.length = 16 → ka.length = 16 → Config.maxPayload < p.length →
      exec (.lwBuild kn ka addr fc p) s = .next { s with fault := 0x03#8, result := none }) ∧
    (kn.length ≠ 16 ∨ ka.length ≠ 16 →
      exec (.lwBuild kn ka addr fc p) s = .next { s with fault := 0x02#8, result := none })

/-- `MS.BUILD`, code 0x32 (R189): in a core without a fault, a 16-byte key and a payload of at most `MAX_PAYLOAD` bytes return
the Meshtastic packet, its flags byte the open parameter `MESH_FLAGS`, and nothing else changes; a longer payload raises
`OVERSIZE`; a key of any other length raises `BAD_OPERAND` first. -/
def Obligations.MsBuildReturnsThePacket : Prop :=
  (∀ o : Operands, decode .command 0x00000032 o = .ok (.msBuild o.bytes1 o.word1 o.word2 o.bytes2)) ∧
  ∀ (km : Bytes) (sid pid : Word) (p : Bytes) (s : State), s.fault = 0#8 →
    (km.length = 16 → p.length ≤ Config.maxPayload →
      exec (.msBuild km sid pid p) s = .next { s with result := some (msBuild Config.meshFlags km sid pid p) }) ∧
    (km.length = 16 → Config.maxPayload < p.length →
      exec (.msBuild km sid pid p) s = .next { s with fault := 0x03#8, result := none }) ∧
    (km.length ≠ 16 → exec (.msBuild km sid pid p) s = .next { s with fault := 0x02#8, result := none })

/-- The LoRaWAN frame (R88, R183 to R185, R190): its length, its nine header bytes, the encrypted payload, and a MIC that is
the first four bytes of the tag of B0 and everything before it (MHDR, FCtrl, byte 14 of B0 and the payload's key are
decisions D11, D12, D10 and D33). -/
def Obligations.LorawanFrameLayout : Prop :=
  ∀ (kn ka : Bytes) (addr : Word) (fc : Half) (p : Bytes), kn.length = 16 → ka.length = 16 → p.length ≤ 246 →
    (lwBuild kn ka addr fc p).length = 13 + p.length ∧
    slice (lwBuild kn ka addr fc p) 0 9 = [0x40] ++ le32 addr ++ [0x00] ++ le16 fc ++ [0x01] ∧
    slice (lwBuild kn ka addr fc p) 9 p.length = ctrLwan ka 0x00 addr fc p ∧
    (lwBuild kn ka addr fc p).drop (9 + p.length) =
      (cmac kn ([0x49, 0, 0, 0, 0, 0x00] ++ le32 addr ++ le16 fc ++ [0, 0, 0, BitVec.ofNat 8 (9 + p.length)] ++
        slice (lwBuild kn ka addr fc p) 0 (9 + p.length))).take 4

/-- The Meshtastic packet (R89, R188, R190): its length by the formula of R190 (the spec's worked figures 21 + L and 22 + L
there disagree with that formula and with W4, log 16), its sixteen header bytes in clear, and the encrypted micro-encoding
of the payload under text port 1 (decision D14). -/
def Obligations.MeshtasticPacketLayout : Prop :=
  ∀ (flags : Byte) (km : Bytes) (sid pid : Word) (p : Bytes), km.length = 16 → p.length ≤ 246 →
    (msBuild flags km sid pid p).length = 16 + (2 + varLen 1 + varLen p.length + p.length) ∧
    (msBuild flags km sid pid p).length = (if p.length ≤ 127 then 20 else 21) + p.length ∧
    slice (msBuild flags km sid pid p) 0 16 =
      [0xFF, 0xFF, 0xFF, 0xFF] ++ le32 sid ++ le32 pid ++ [flags, 0x08, 0x00, 0x00] ∧
    (msBuild flags km sid pid p).drop 16 = ctrSimple km pid sid (pbEnc 1 p)

/-- Both frames decrypt back (W7, R146): the LoRaWAN payload field to the payload, the Meshtastic encrypted payload to the
micro-encoding, whose last bytes are the payload. -/
def Obligations.FramesDecryptBack : Prop :=
  ∀ (kn ka km : Bytes) (addr sid pid : Word) (fc : Half) (flags : Byte) (p : Bytes),
    kn.length = 16 → ka.length = 16 → km.length = 16 → p.length ≤ 246 →
    ctrLwan ka 0x00 addr fc (slice (lwBuild kn ka addr fc p) 9 ((lwBuild kn ka addr fc p).length - 13)) = p ∧
    ctrSimple km pid sid ((msBuild flags km sid pid p).drop 16) = pbEnc 1 p ∧
    (pbEnc 1 p).drop ((pbEnc 1 p).length - p.length) = p

/-- The pseudo-instructions of R96 (decision D2): `PB.TEXT` encodes under text port 1, `CTR.LWUP` uses the uplink Dir, and
the first four bytes of `LW.MIC`'s result are the MIC of R185, for messages of at most 255 bytes. -/
def Obligations.PseudoInstructionsExpand : Prop :=
  ∀ (k : Bytes) (addr : Word) (fc : Half) (d : Bytes) (s : State), s.fault = 0#8 → k.length = 16 →
    exec (pbText d) s = .next { s with result := some (pbEnc 1 d) } ∧
    (d.length ≤ 4080 → exec (ctrLwup k addr fc d) s = .next { s with result := some (ctrLwan k 0x00 addr fc d) }) ∧
    (d.length ≤ 255 → ∃ i r, lwMic k addr fc d = some i ∧ exec i s = .next { s with result := some r } ∧
      r.take 4 = mic k addr fc d) ∧
    (255 < d.length → lwMic k addr fc d = none)

/-! ### Relay cycle controller -/

/-- `EV.RXSIG` (R218) sets `RXPEND` in every phase and writes nothing else, so a signal while one is pending changes nothing
(that it may come in any phase is decision D25). -/
def Obligations.RxsigLatchesTheNotification : Prop :=
  (∀ o : Operands, decode .event 0x00000081 o = .ok .evRxsig) ∧
  ∀ s : State, s.fault = 0#8 →
    exec .evRxsig s = .next { s with rxPend := true } ∧ (s.rxPend = true → exec .evRxsig s = .next s)

/-- `CTL.DISPATCH` (R220): enabled with no fault in `LISTEN_IDLE` with a pending notification, it clears the notification,
emits `READ` and goes to `LISTEN_READ`; its code is never an input. -/
def Obligations.DispatchStartsTheRead : Prop :=
  (∀ (port : Port) (w : Word) (o : Operands), codeField w = 0xC0#8 → ∃ e, decode port w o = .error e) ∧
  ∀ s : State, s.fault = 0#8 → s.phase = .listenIdle → s.rxPend = true →
    exec .ctlDispatch s = .next { s with rxPend := false, trace := s.trace ++ [.read], phase := .listenRead }

/-- A failed read (R221, R27): `RDFAIL` is set, the Tempest configuration is applied again, and no counter changes; DATA, its
length, RSSI and SNR do not matter (R212, R213; that the length is not compared is log 6). -/
def Obligations.FailedReadResumesListening : Prop :=
  (∀ o : Operands, decode .event 0x00000082 o = .ok (.evRdresp false o.bytes1 o.length o.rssi o.snr)) ∧
  ∀ (data : Bytes) (n rssi snr : Nat) (s : State), s.fault = 0#8 → s.phase = .listenRead →
    exec (.evRdresp false data n rssi snr) s =
      .next { s with
        status := s.status ||| 0x01#8,
        trace := s.trace ++ [.cfg Config.cfgTempestRx, .startRx],
        phase := .listenIdle }

/-- An accepted read (R221 and the LoRaWAN hand-off of R222): the frame and the channel use the counters held before the step,
and both counters advance in it (decision D7). -/
def Obligations.AcceptedReadHandsOffTheLorawanFrame : Prop :=
  (∀ o : Operands, decode .event 0x00000182 o = .ok (.evRdresp true o.bytes1 o.length o.rssi o.snr)) ∧
  ∀ (data : Bytes) (rssi snr : Nat) (s : State), s.fault = 0#8 → s.phase = .listenRead →
    data.length ≤ Config.maxPayload →
    exec (.evRdresp true data data.length rssi snr) s =
      .next { s with
        status := s.status &&& 0xFE#8,
        rxBuf := data,
        trace := s.trace ++ [.cfg (Config.cfgLwanTx s.chIdx.toFin),
          .tx (lwBuild s.keyNwk.toList s.keyApp.toList s.devAddr s.fcnt data)],
        fcnt := s.fcnt + 1,
        chIdx := s.chIdx + 1,
        phase := .lwanTx }

/-- The faults of the radio's answers (R213, R216, R221, R252; decisions D16 and D24): an answer in a phase that awaits none,
or a length that disagrees with the data of a successful read (log 6), raises `PROTOCOL`; a successful read of more than
`MAX_PAYLOAD` bytes raises `OVERSIZE`. -/
def Obligations.RadioAnswerFaults : Prop :=
  (∀ (ok : Bool) (data : Bytes) (n rssi snr : Nat) (s : State), s.fault = 0#8 →
    (s.phase ≠ .listenRead → exec (.evRdresp ok data n rssi snr) s = .next { s with fault := 0x05#8, result := none }) ∧
    (s.phase = .listenRead → ok = true → n ≠ data.length →
      exec (.evRdresp ok data n rssi snr) s = .next { s with fault := 0x05#8, result := none }) ∧
    (s.phase = .listenRead → ok = true → n = data.length → Config.maxPayload < data.length →
      exec (.evRdresp ok data n rssi snr) s = .next { s with fault := 0x03#8, result := none })) ∧
  ∀ (ok : Bool) (s : State), s.fault = 0#8 → s.phase ≠ .lwanTx → s.phase ≠ .meshTx →
    exec (.evTxresp ok) s = .next { s with fault := 0x05#8, result := none }

/-- `EV.TXRESP` in `LWAN_TX` (R223) and the Meshtastic hand-off (R224, use then advance: decision D7), whatever the transmit
result is: `LWTXFAIL` records the result, the Meshtastic configuration and the packet of the identifier held before the step
are emitted, `PKTID` advances, and the core goes to `MESH_TX`; nothing else changes. -/
def Obligations.LorawanTransmitAnswerHandsOffTheMeshPacket : Prop :=
  (∀ (ok : Bool) (o : Operands), decode .event (wordOf 0x83 (if ok then 1 else 0)) o = .ok (.evTxresp ok)) ∧
  ∀ (ok : Bool) (s : State), s.fault = 0#8 → s.phase = .lwanTx →
    exec (.evTxresp ok) s =
      .next { s with
        status := if ok then s.status &&& 0xFD#8 else s.status ||| 0x02#8,
        trace := s.trace ++ [.cfg Config.cfgMeshTx,
          .tx (msBuild Config.meshFlags s.keyMesh.toList s.nodeId s.pktId s.rxBuf)],
        pktId := s.pktId + 1,
        phase := .meshTx }

/-- `EV.TXRESP` in `MESH_TX` (R225), whatever the transmit result is: `MSTXFAIL` records the result, `RXBUF` becomes empty,
the Tempest configuration and the resume of receiving are emitted, and the core goes to `LISTEN_IDLE`; nothing else
changes. -/
def Obligations.MeshTransmitAnswerResumesListening : Prop :=
  (∀ (ok : Bool) (o : Operands), decode .event (wordOf 0x83 (if ok then 1 else 0)) o = .ok (.evTxresp ok)) ∧
  ∀ (ok : Bool) (s : State), s.fault = 0#8 → s.phase = .meshTx →
    exec (.evTxresp ok) s =
      .next { s with
        status := if ok then s.status &&& 0xFB#8 else s.status ||| 0x04#8,
        rxBuf := [],
        trace := s.trace ++ [.cfg Config.cfgTempestRx, .startRx],
        phase := .listenIdle }

/-! ### Registers and reset -/

/-- `REG.READ` of each assigned number (R227, decision D35), in every state, faulted ones included: the register
zero-extended to 32 bits, in `le32`, and nothing written; the reserved bits of `STATUS` read 0 (R35; log 15). -/
def Obligations.RegReadReturnsTheRegister : Prop :=
  (∀ (n : Byte) (o : Operands), decode .command (wordOf 0x40 n) o = .ok (.regRead n)) ∧
  ∀ s : State,
    (s.phase = .listenIdle → exec (.regRead 0x00) s = .next { s with result := some [0, 0, 0, 0] }) ∧
    (s.phase = .listenRead → exec (.regRead 0x00) s = .next { s with result := some [1, 0, 0, 0] }) ∧
    (s.phase = .lwanTx → exec (.regRead 0x00) s = .next { s with result := some [2, 0, 0, 0] }) ∧
    (s.phase = .meshTx → exec (.regRead 0x00) s = .next { s with result := some [3, 0, 0, 0] }) ∧
    exec (.regRead 0x01) s = .next { s with result := some [if s.rxPend then 1 else 0, 0, 0, 0] } ∧
    exec (.regRead 0x02) s = .next { s with result := some [s.pktId.extractLsb' 0 8, s.pktId.extractLsb' 8 8,
      s.pktId.extractLsb' 16 8, s.pktId.extractLsb' 24 8] } ∧
    exec (.regRead 0x03) s = .next { s with result := some [s.fcnt.extractLsb' 0 8, s.fcnt.extractLsb' 8 8, 0, 0] } ∧
    exec (.regRead 0x04) s = .next { s with result := some [s.chIdx.zeroExtend 8, 0, 0, 0] } ∧
    exec (.regRead 0x05) s = .next { s with result := some [s.status &&& 0x07#8, 0, 0, 0] } ∧
    exec (.regRead 0x06) s = .next { s with result := some [s.fault, 0, 0, 0] } ∧
    exec (.regRead 0x07) s = .next { s with result := some (le32 s.devAddr) } ∧
    exec (.regRead 0x08) s = .next { s with result := some (le32 s.nodeId) }

/-- `EV.RESET` (R280 to R282, decision D9), in every state, faulted or in the middle of a cycle: every register and the trace
get the values of R281, the provisioning registers from their parameters. -/
def Obligations.ResetSetsEveryRegister : Prop :=
  (∀ o : Operands, decode .event 0x00000080 o = .ok (.evReset o.word1 o.half o.index)) ∧
  ∀ (p : Word) (f : Half) (c : Byte) (s : State), c.toNat ≤ 7 →
    exec (.evReset p f c) s =
      .next {
        keyNwk := Config.keyNwk, keyApp := Config.keyApp, keyMesh := Config.keyMesh,
        devAddr := Config.devAddr, nodeId := Config.nodeId,
        pktId := p, fcnt := f, chIdx := c.setWidth 3,
        phase := .listenIdle, rxPend := false, rxBuf := [], status := 0x00#8, fault := 0x00#8,
        trace := [.cfg Config.cfgTempestRx, .startRx],
        result := none, agenda := s.agenda }

/-- Operand values that no rule assigns: `REG.READ` of a number above 8 and `EV.RESET` with an INIT_CHIDX above 7 raise
`BAD_OPERAND` (R227, R251, R280; decisions D9 and D35, the wide INIT_CHIDX field is log 5), and in a faulted core have no
step (R253, decision D36; for `EV.RESET` the model's reading of it, log 4). -/
def Obligations.UnassignedOperandValuesFault : Prop :=
  (∀ (n : Byte) (s : State), 8 < n.toNat →
    (s.fault = 0#8 → exec (.regRead n) s = .next { s with fault := 0x02#8, result := none }) ∧
    (s.fault ≠ 0#8 → exec (.regRead n) s = .next s)) ∧
  ∀ (p : Word) (f : Half) (c : Byte) (s : State), 7 < c.toNat →
    (s.fault = 0#8 → exec (.evReset p f c) s = .next { s with fault := 0x02#8, result := none }) ∧
    (s.fault ≠ 0#8 → exec (.evReset p f c) s = .next s)

/-- The state after reset is the one that `EV.RESET` with the defaults 1, 0 and 0 of R28 and R280 makes of any state, the
turns to come apart; it is a cycle boundary (R228) (decisions D8, D9, D42). -/
def Obligations.ResetStateIsTheDefaultReset : Prop :=
  (∀ s : State, exec (.evReset 1 0 0) s = .next { State.reset with agenda := s.agenda }) ∧
  State.reset.pktId = 1 ∧ State.reset.fcnt = 0 ∧ State.reset.chIdx = 0 ∧ State.reset.AtCycleBoundary

/-! ### Rules of the whole machine -/

/-- A step with no transition leaves the core where it is (R211, decision D36): in a faulted core every instruction but
`EV.RESET` and `REG.READ` (R253, decision D4), and `CTL.DISPATCH` wherever it is not enabled (R220); so a core with nothing to
come and no enabled internal step only clears the result channel, which is the model's (log 2, log 3). -/
def Obligations.StepsWithNoTransitionLeaveTheCore : Prop :=
  (∀ (i : Instr) (s : State), s.fault ≠ 0#8 → isReset i = false → isRegRead i = false → exec i s = .next s) ∧
  ∀ s : State, s.fault ≠ 0#8 ∨ s.phase ≠ .listenIdle ∨ s.rxPend = false →
    exec .ctlDispatch s = .next s ∧ (s.agenda = [] → step s = .next { s with result := none })

/-- The causes of R251 are all: when the next turn decodes to an instruction with the widths of R72 and the host and the radio
keep their duties (R215, R287, and the block bound of R145), a core without a fault steps on without one (decisions D4, D16,
D19, D20, D24, D26). -/
def Obligations.DutifulInputsNeverFault : Prop :=
  ∀ (s : State) (i : Instr), s.fault = 0#8 → decodeTurn (nextTurn s) = .ok i → WellFormed i → dutiful s i →
    ∃ t, step s = .next t ∧ t.fault = 0#8

/-- A fault is precise (R252, decision D4): a step that records one writes `FAULT` alone, with an assigned code (R250), emits
nothing and returns no result. -/
def Obligations.FaultsArePrecise : Prop :=
  ∀ (i : Instr) (s t : State), s.fault = 0#8 → exec i s = .next t → t.fault ≠ 0#8 →
    t = { s with fault := t.fault, result := none } ∧ t.fault.toNat ≤ 5

/-- The first fault is kept until a reset (R36, R253; decision D4): a step of a faulted core keeps every register and the
trace, or it is an `EV.RESET` and clears the fault. That the turn is taken off the agenda although it has no step is the
model's reading (log 3), and so is that an `EV.RESET` with an INIT_CHIDX above 7 has no step in a faulted core (log 4). -/
def Obligations.FirstFaultIsKept : Prop :=
  ∀ s t : State, s.fault ≠ 0#8 → step s = .next t →
    t = { s with result := t.result, agenda := s.agenda.tail } ∨
    (t.fault = 0#8 ∧ ∃ p f c, decodeTurn (nextTurn s) = .ok (.evReset p f c) ∧ c.toNat ≤ 7)

/-- No command writes a register but `FAULT`, emits an action or touches the turns to come (R60, decision D3). -/
def Obligations.CommandsWriteNoRegister : Prop :=
  ∀ (i : Instr) (s t : State), isCommand i = true → exec i s = .next t →
    t = { s with fault := t.fault, result := t.result } ∧ (s.fault ≠ 0#8 → t.fault = s.fault)

/-- A command other than `REG.READ` is a function of its operands (R60, decision D3): in any two states without a fault it
returns the same result or raises the same fault. -/
def Obligations.CommandsAreFunctionsOfTheirOperands : Prop :=
  ∀ (i : Instr) (s s' t t' : State), isCommand i = true → isRegRead i = false → s.fault = 0#8 → s'.fault = 0#8 →
    exec i s = .next t → exec i s' = .next t' → t.result = t'.result ∧ t.fault = t'.fault

/-- No command, `REG.READ` included, tells anything of the keys or of `RXBUF` (R21, R52, R259; decision D29): two states that
differ in them alone give the same result and the same fault. -/
def Obligations.CommandsRevealNoKey : Prop :=
  ∀ (i : Instr) (s t t' : State) (a b c : Vector Byte 16) (d : Bytes), isCommand i = true →
    exec i s = .next t → exec i { s with keyNwk := a, keyApp := b, keyMesh := c, rxBuf := d } = .next t' →
    t.result = t'.result ∧ t.fault = t'.fault

/-- Only reset writes the keys and the identity registers, and it writes their parameters (R21, R23, R259; decisions D27 and
D29). -/
def Obligations.ProvisioningIsWrittenByResetAlone : Prop :=
  ∀ (i : Instr) (s t : State), exec i s = .next t →
    (isReset i = false → t.keyNwk = s.keyNwk ∧ t.keyApp = s.keyApp ∧ t.keyMesh = s.keyMesh ∧
      t.devAddr = s.devAddr ∧ t.nodeId = s.nodeId) ∧
    (isReset i = true → t.fault = 0#8 → t.Provisioned)

/-- Every step answers a next state: the core has no terminal state (R29, R228, and R76 for words that do not decode). -/
def Obligations.EveryStepAnswersANextState : Prop := ∀ s : State, ∃ t, step s = .next t

/-- The phases change only as R210 says (decision D6). -/
def Obligations.PhasesFollowTheTransitionTable : Prop :=
  ∀ (i : Instr) (s t : State), exec i s = .next t →
    t.phase = s.phase ∨
    (i = .ctlDispatch ∧ s.fault = 0#8 ∧ s.rxPend = true ∧ s.phase = .listenIdle ∧ t.phase = .listenRead) ∨
    (∃ d n r q, i = .evRdresp false d n r q ∧ s.fault = 0#8 ∧ s.phase = .listenRead ∧ t.phase = .listenIdle) ∨
    (∃ d n r q, i = .evRdresp true d n r q ∧ s.fault = 0#8 ∧ s.phase = .listenRead ∧ t.phase = .lwanTx) ∨
    (∃ ok, i = .evTxresp ok ∧ s.fault = 0#8 ∧ s.phase = .lwanTx ∧ t.phase = .meshTx) ∨
    (∃ ok, i = .evTxresp ok ∧ s.fault = 0#8 ∧ s.phase = .meshTx ∧ t.phase = .listenIdle) ∨
    (isReset i = true ∧ t.phase = .listenIdle)

/-- The counters advance on the hand-off and never otherwise (R26, R27): outside reset, `FCNT` and `CHIDX` change in one step
only, the one that goes from `LISTEN_READ` to `LWAN_TX`, both by one modulo their width, and that step names the channel
held before; a failed read and a transmit result change neither. -/
def Obligations.CountersAdvanceOnlyOnTheHandoff : Prop :=
  ∀ (i : Instr) (s t : State), isReset i = false → exec i s = .next t →
    ((t.fcnt = s.fcnt ∧ t.chIdx = s.chIdx ∧ ¬ (s.phase = .listenRead ∧ t.phase = .lwanTx)) ∨
      (t.fcnt = s.fcnt + 1 ∧ t.chIdx = s.chIdx + 1 ∧ s.phase = .listenRead ∧ t.phase = .lwanTx ∧
        (∃ d n r q, i = .evRdresp true d n r q) ∧
        ∃ f, t.trace = s.trace ++ [.cfg (Config.cfgLwanTx s.chIdx.toFin), .tx f])) ∧
    ((t.pktId = s.pktId ∧ ¬ (s.phase = .lwanTx ∧ t.phase = .meshTx)) ∨
      (t.pktId = s.pktId + 1 ∧ s.phase = .lwanTx ∧ t.phase = .meshTx ∧ ∃ ok, i = .evTxresp ok))

/-- The notification is set by `EV.RXSIG` alone, and cleared by `CTL.DISPATCH` and by reset alone (R30, R219, R257; decision
D25). -/
def Obligations.NotificationIsConsumedByDispatchAlone : Prop :=
  ∀ (i : Instr) (s t : State), exec i s = .next t →
    (s.rxPend = false → t.rxPend = true → i = .evRxsig) ∧
    (s.rxPend = true → t.rxPend = false → isReset i = true ∨
      (i = .ctlDispatch ∧ s.phase = .listenIdle ∧ t.phase = .listenRead ∧ t.trace = s.trace ++ [.read]))

/-- The trace only grows, by one of the four lists of R210 (R39, R214; decision D6), outside reset. -/
def Obligations.TraceGrowsByTheActionsOfATransition : Prop :=
  ∀ (i : Instr) (s t : State), isReset i = false → exec i s = .next t →
    ∃ l, t.trace = s.trace ++ l ∧
      (l = [] ∨ l = [.read] ∨ l = [.cfg Config.cfgTempestRx, .startRx] ∨
        (∃ f, l = [.cfg (Config.cfgLwanTx s.chIdx.toFin), .tx f]) ∨ ∃ f, l = [.cfg Config.cfgMeshTx, .tx f])

/-- No instruction acts on `STATUS` (R35, decision D5): another content of it changes nothing but `STATUS` afterwards, for
every instruction but `REG.READ`. -/
def Obligations.StatusIsNeverActedOn : Prop :=
  ∀ (i : Instr) (s t : State) (x : Byte), isRegRead i = false → exec i s = .next t →
    ∃ y, exec i { s with status := x } = .next { t with status := y }

/-- An accepted cycle from a cycle boundary with no further signal (R228 and R229, inferences the spec marks as its own; D42):
the trace gains exactly seven actions, each counter advances by one, and the core is at a cycle boundary again. -/
def Obligations.AcceptedCycleGainsSevenActions : Prop :=
  ∀ (s : State) (data : Bytes) (rssi snr : Nat) (ok1 ok2 : Bool), s.AtCycleBoundary → data.length ≤ Config.maxPayload →
    ∃ s1 s2 s3 s4 s5,
      exec .evRxsig s = .next s1 ∧ exec .ctlDispatch s1 = .next s2 ∧
      exec (.evRdresp true data data.length rssi snr) s2 = .next s3 ∧
      exec (.evTxresp ok1) s3 = .next s4 ∧ exec (.evTxresp ok2) s4 = .next s5 ∧
      s5.AtCycleBoundary ∧ s5.rxBuf = [] ∧
      s5.fcnt = s.fcnt + 1 ∧ s5.chIdx = s.chIdx + 1 ∧ s5.pktId = s.pktId + 1 ∧
      s5.trace = s.trace ++
        [.read, .cfg (Config.cfgLwanTx s.chIdx.toFin),
          .tx (lwBuild s.keyNwk.toList s.keyApp.toList s.devAddr s.fcnt data),
          .cfg Config.cfgMeshTx, .tx (msBuild Config.meshFlags s.keyMesh.toList s.nodeId s.pktId data),
          .cfg Config.cfgTempestRx, .startRx]

/-- A failed read from a cycle boundary (R229, an inference the spec marks as its own): the trace gains three actions and no
counter changes, whatever length comes with the data; that the length is not compared on a failed read is the model's choice
(log 6). -/
def Obligations.FailedReadCycleConsumesNoCounter : Prop :=
  ∀ (s : State) (data : Bytes) (n rssi snr : Nat), s.AtCycleBoundary →
    ∃ s1 s2 s3,
      exec .evRxsig s = .next s1 ∧ exec .ctlDispatch s1 = .next s2 ∧
      exec (.evRdresp false data n rssi snr) s2 = .next s3 ∧
      s3.AtCycleBoundary ∧ s3.fcnt = s.fcnt ∧ s3.chIdx = s.chIdx ∧ s3.pktId = s.pktId ∧
      s3.trace = s.trace ++ [.read, .cfg Config.cfgTempestRx, .startRx]

/-- The state after reset has the invariants of the registers and of the trace. -/
def Obligations.ResetStateIsLegal : Prop := State.reset.RegistersLegal ∧ State.reset.TraceLegal

/-- Every step keeps the registers legal (R21, R23, R31, R35, R250, R286): the keys and identities hold their parameters, the
reserved bits of `STATUS` are 0, `FAULT` holds an assigned code, and `RXBUF` is within `MAX_PAYLOAD` and empty while
listening. -/
def Obligations.StepKeepsRegistersLegal : Prop :=
  ∀ s t : State, s.RegistersLegal → step s = .next t → t.RegistersLegal

/-- Every step keeps the trace legal (R210, R215, R226): the radio's last configuration is the one the phase needs, the last
action is the request the phase waits on, and every `TX` stands directly after a `CFG`. -/
def Obligations.StepKeepsTraceLegal : Prop :=
  ∀ s t : State, s.TraceLegal → step s = .next t → t.TraceLegal
end

