-- ==== Sys2Proof/Laws/Bytes.lean ====
section
/-! SUPPORT. Lengths of the byte strings that the operand forms and the layouts make, and the laws of XOR and of the
big-endian reading. -/

namespace Sys2Proof.Machine

@[simp] theorem length_zeros (n : Nat) : (zeros n).length = n := List.length_replicate

@[simp] theorem length_slice (b : Bytes) (a n : Nat) : (slice b a n).length = min n (b.length - a) := by simp [slice]

@[simp] theorem length_xorBytes (a b : Bytes) : (xorBytes a b).length = min a.length b.length := List.length_zipWith

@[simp] theorem length_le16 (v : Half) : (le16 v).length = 2 := rfl

@[simp] theorem length_le32 (v : Word) : (le32 v).length = 4 := rfl

@[simp] theorem length_unbe128 (v : BitVec 128) : (unbe128 v).length = 16 := by simp [unbe128]

@[simp] theorem length_simpleNonce (pid sid : Word) : (simpleNonce pid sid).length = 16 := rfl

@[simp] theorem length_aBlock (dir : Byte) (addr : Word) (fc : Half) (i : Nat) : (aBlock dir addr fc i).length = 16 := rfl

@[simp] theorem length_b0Block (addr : Word) (fc : Half) (n : Nat) : (b0Block addr fc n).length = 16 := rfl

@[simp] theorem xorBytes_nil (b : Bytes) : xorBytes [] b = [] := rfl

@[simp] theorem xorBytes_cons (x y : Byte) (a b : Bytes) :
    xorBytes (x :: a) (y :: b) = (x ^^^ y) :: xorBytes a b := rfl

/-- XOR with the same string twice gives the string back, where the string covers it (R146). -/
theorem xorBytes_twice (a b : Bytes) (h : a.length ≤ b.length) : xorBytes (xorBytes a b) b = a := by
  induction a generalizing b with
  | nil => rfl
  | cons x a ih =>
    cases b with
    | nil => simp at h
    | cons y b =>
      simp only [xorBytes_cons, List.cons.injEq]
      exact ⟨by rw [BitVec.xor_assoc, BitVec.xor_self, BitVec.xor_zero], ih b (by simpa using h)⟩

theorem xorBytes_comm (a b : Bytes) : xorBytes a b = xorBytes b a := by
  induction a generalizing b with
  | nil => cases b <;> rfl
  | cons x a ih =>
    cases b with
    | nil => rfl
    | cons y b => simp [ih b, BitVec.xor_comm x y]

/-- XOR with zeros changes nothing. -/
theorem zeros_xorBytes (b : Bytes) : xorBytes (zeros b.length) b = b := by
  induction b with
  | nil => rfl
  | cons y b ih =>
    rw [List.length_cons, zeros, List.replicate_succ, xorBytes_cons]
    exact congrArg₂ _ BitVec.zero_xor ih

/-- The number of segments is 0 only for the empty string (R140). -/
theorem blockCount_pos {n : Nat} (h : 0 < n) : 0 < blockCount n := by
  unfold blockCount
  omega

/-- All data lies in the segments, and the last segment is not empty (R140). -/
theorem blockCount_bounds (n : Nat) : n ≤ 16 * blockCount n ∧ 16 * blockCount n < n + 16 := by
  unfold blockCount
  omega

end Sys2Proof.Machine
end

