-- ==== Sys2Proof/Laws/Aes.lean ====
section
/-! SUPPORT. Lengths and single bytes in the block cipher engine. -/

namespace Sys2Proof.Machine

@[simp] theorem length_subBytes (s : Bytes) : (subBytes s).length = s.length := List.length_map _

@[simp] theorem length_shiftRows (s : Bytes) : (shiftRows s).length = 16 := by simp [shiftRows]

@[simp] theorem length_mixColumns (s : Bytes) : (mixColumns s).length = 16 := rfl

theorem length_addRoundKey {sched s : Bytes} {n : Nat} (h : sched.length = 176) (hn : n ≤ 10) (hs : s.length = 16) :
    (addRoundKey sched n s).length = 16 := by
  simp [addRoundKey, h, hs]
  omega

theorem length_fullRound {sched : Bytes} {n : Nat} (h : sched.length = 176) (hn : n ≤ 10) (s : Bytes) :
    (fullRound sched s n).length = 16 := length_addRoundKey h hn (length_mixColumns _)

/-- `EncryptBlock` gives a block (R121). -/
theorem length_encryptBlock {sched : Bytes} (h : sched.length = 176) (p : Bytes) :
    (encryptBlock sched p).length = 16 := length_addRoundKey h (by decide) (length_shiftRows _)

/-- A byte of a XOR of two strings that both reach it. -/
theorem getD_xorBytes {a b : Bytes} {i : Nat} (ha : i < a.length) (hb : i < b.length) :
    (xorBytes a b).getD i 0 = a.getD i 0 ^^^ b.getD i 0 := by
  rw [List.getD_eq_getElem _ _ (by rw [length_xorBytes]; omega), List.getD_eq_getElem _ _ ha,
    List.getD_eq_getElem _ _ hb]
  exact List.getElem_zipWith

theorem getD_slice {b : Bytes} {a n i : Nat} (hi : i < n) : (slice b a n).getD i 0 = b.getD (a + i) 0 := by
  simp only [slice, List.getD_eq_getElem?_getD, List.getElem?_take, if_pos hi, List.getElem?_drop]

/-- SubBytes, one byte (R114). -/
theorem getD_subBytes {s : Bytes} {i : Nat} (h : i < s.length) : (subBytes s).getD i 0 = sbox (s.getD i 0) := by
  rw [List.getD_eq_getElem _ _ (by simpa using h), List.getD_eq_getElem _ _ h]
  exact List.getElem_map _

/-- ShiftRows, row r and column c (R115). -/
theorem getD_shiftRows (s : Bytes) {r c : Nat} (hr : r < 4) (hc : c < 4) :
    (shiftRows s).getD (r + 4 * c) 0 = s.getD (r + 4 * ((c + r) % 4)) 0 := by
  rw [List.getD_eq_getElem _ _ (by rw [length_shiftRows]; omega)]
  simp only [shiftRows, List.getElem_map, List.getElem_range, byteAt]
  rw [show (r + 4 * c) % 4 = r by omega, show (r + 4 * c) / 4 = c by omega]

/-- MixColumns, row r of column c (R116). -/
theorem getD_mixColumns (s : Bytes) {r c : Nat} (hr : r < 4) (hc : c < 4) :
    (mixColumns s).getD (4 * c + r) 0 =
      (mixColumn (byteAt s (4 * c)) (byteAt s (4 * c + 1)) (byteAt s (4 * c + 2)) (byteAt s (4 * c + 3))).getD r 0 := by
  interval_cases c <;> interval_cases r <;> rfl

/-- AddRoundKey(n), one byte (R117). -/
theorem getD_addRoundKey {sched s : Bytes} {n i : Nat} (h : sched.length = 176) (hn : n ≤ 10) (hs : s.length = 16)
    (hi : i < 16) : (addRoundKey sched n s).getD i 0 = s.getD i 0 ^^^ sched.getD (16 * n + i) 0 := by
  rw [addRoundKey, getD_xorBytes (by omega) (by rw [length_slice]; omega), getD_slice hi]

/-- One turn of the key expansion keeps words of 4 bytes. -/
theorem length_expandWord {ws : List Bytes} {j : Nat} (hw : ∀ w ∈ ws, w.length = 4) (hlen : ws.length = j) (hj : 4 ≤ j) :
    (expandWord ws j).length = j + 1 ∧ ∀ w ∈ expandWord ws j, w.length = 4 := by
  have hget : ∀ i, i < j → (ws.getD i []).length = 4 := fun i hi => by
    rw [List.getD_eq_getElem _ _ (by omega)]
    exact hw _ (List.getElem_mem _)
  have hnew : (xorBytes (ws.getD (j - 4) []) (keyStep (ws.getD (j - 1) []) j)).length = 4 := by
    have h4 := hget (j - 4) (by omega)
    have h1 := hget (j - 1) (by omega)
    rw [length_xorBytes, h4, keyStep]
    split
    · have hr : (subWord (rotWord (ws.getD (j - 1) []))).length = 4 := by
        rw [subWord, List.length_map, rotWord, List.length_append, List.length_drop, List.length_take, h1]
        rfl
      rw [length_xorBytes, hr]
      rfl
    · rw [h1]
      rfl
  refine ⟨by simp [expandWord, hlen], fun w hmem => ?_⟩
  rcases List.mem_append.1 hmem with h | h
  · exact hw w h
  · rw [List.mem_singleton.1 h]
    exact hnew

/-- The loop of the key expansion keeps words of 4 bytes. -/
theorem length_expandLoop (n : Nat) {ws : List Bytes} {j : Nat} (hw : ∀ w ∈ ws, w.length = 4) (hlen : ws.length = j)
    (hj : 4 ≤ j) :
    ((List.range' j n).foldl expandWord ws).length = j + n ∧
      ∀ w ∈ (List.range' j n).foldl expandWord ws, w.length = 4 := by
  induction n generalizing ws j with
  | zero => exact ⟨by simpa using hlen, by simpa using hw⟩
  | succ n ih =>
    rw [List.range'_succ, List.foldl_cons]
    obtain ⟨hl, hw'⟩ := length_expandWord hw hlen hj
    obtain ⟨hl', hw''⟩ := ih hw' hl (by omega)
    exact ⟨by omega, hw''⟩

/-- The schedule of a 16-byte key is 44 words of 4 bytes (R120). -/
theorem keyWords_shape {k : Bytes} (h : k.length = 16) :
    (keyWords k).length = 44 ∧ ∀ w ∈ keyWords k, w.length = 4 := by
  refine length_expandLoop 40 ?_ (by simp) (by decide)
  intro w hw
  obtain ⟨j, hj, rfl⟩ := List.mem_map.1 hw
  have := List.mem_range.1 hj
  rw [length_slice, h]
  omega

theorem length_flatten_words {ws : List Bytes} (h : ∀ w ∈ ws, w.length = 4) : ws.flatten.length = 4 * ws.length := by
  induction ws with
  | nil => rfl
  | cons w ws ih =>
    rw [List.flatten_cons, List.length_append, ih (fun v hv => h v (List.mem_cons_of_mem _ hv)),
      h w List.mem_cons_self, List.length_cons]
    omega

theorem length_keyExpand {k : Bytes} (h : k.length = 16) : (keyExpand k).length = 176 := by
  rw [keyExpand, length_flatten_words (keyWords_shape h).2, (keyWords_shape h).1]

/-- `AES` gives a block under every 16-byte key (R122). -/
theorem length_aes {k : Bytes} (h : k.length = 16) (p : Bytes) : (aes k p).length = 16 :=
  length_encryptBlock (length_keyExpand h) p

end Sys2Proof.Machine
end

