-- ==== Sys2Proof/Laws/State.lean ====
section
/-! SUPPORT. One lemma per field per update of State, so that no later proof unfolds a record update. -/

namespace Sys2Proof.Machine

variable (s : State)

@[simp] theorem State.setPktId_keyNwk (v : Word) : (s.setPktId v).keyNwk = s.keyNwk := rfl
@[simp] theorem State.setPktId_keyApp (v : Word) : (s.setPktId v).keyApp = s.keyApp := rfl
@[simp] theorem State.setPktId_keyMesh (v : Word) : (s.setPktId v).keyMesh = s.keyMesh := rfl
@[simp] theorem State.setPktId_devAddr (v : Word) : (s.setPktId v).devAddr = s.devAddr := rfl
@[simp] theorem State.setPktId_nodeId (v : Word) : (s.setPktId v).nodeId = s.nodeId := rfl
@[simp] theorem State.setPktId_pktId (v : Word) : (s.setPktId v).pktId = v := rfl
@[simp] theorem State.setPktId_fcnt (v : Word) : (s.setPktId v).fcnt = s.fcnt := rfl
@[simp] theorem State.setPktId_chIdx (v : Word) : (s.setPktId v).chIdx = s.chIdx := rfl
@[simp] theorem State.setPktId_phase (v : Word) : (s.setPktId v).phase = s.phase := rfl
@[simp] theorem State.setPktId_rxPend (v : Word) : (s.setPktId v).rxPend = s.rxPend := rfl
@[simp] theorem State.setPktId_rxBuf (v : Word) : (s.setPktId v).rxBuf = s.rxBuf := rfl
@[simp] theorem State.setPktId_status (v : Word) : (s.setPktId v).status = s.status := rfl
@[simp] theorem State.setPktId_fault (v : Word) : (s.setPktId v).fault = s.fault := rfl
@[simp] theorem State.setPktId_trace (v : Word) : (s.setPktId v).trace = s.trace := rfl
@[simp] theorem State.setPktId_result (v : Word) : (s.setPktId v).result = s.result := rfl
@[simp] theorem State.setPktId_agenda (v : Word) : (s.setPktId v).agenda = s.agenda := rfl

@[simp] theorem State.setFcnt_keyNwk (v : Half) : (s.setFcnt v).keyNwk = s.keyNwk := rfl
@[simp] theorem State.setFcnt_keyApp (v : Half) : (s.setFcnt v).keyApp = s.keyApp := rfl
@[simp] theorem State.setFcnt_keyMesh (v : Half) : (s.setFcnt v).keyMesh = s.keyMesh := rfl
@[simp] theorem State.setFcnt_devAddr (v : Half) : (s.setFcnt v).devAddr = s.devAddr := rfl
@[simp] theorem State.setFcnt_nodeId (v : Half) : (s.setFcnt v).nodeId = s.nodeId := rfl
@[simp] theorem State.setFcnt_pktId (v : Half) : (s.setFcnt v).pktId = s.pktId := rfl
@[simp] theorem State.setFcnt_fcnt (v : Half) : (s.setFcnt v).fcnt = v := rfl
@[simp] theorem State.setFcnt_chIdx (v : Half) : (s.setFcnt v).chIdx = s.chIdx := rfl
@[simp] theorem State.setFcnt_phase (v : Half) : (s.setFcnt v).phase = s.phase := rfl
@[simp] theorem State.setFcnt_rxPend (v : Half) : (s.setFcnt v).rxPend = s.rxPend := rfl
@[simp] theorem State.setFcnt_rxBuf (v : Half) : (s.setFcnt v).rxBuf = s.rxBuf := rfl
@[simp] theorem State.setFcnt_status (v : Half) : (s.setFcnt v).status = s.status := rfl
@[simp] theorem State.setFcnt_fault (v : Half) : (s.setFcnt v).fault = s.fault := rfl
@[simp] theorem State.setFcnt_trace (v : Half) : (s.setFcnt v).trace = s.trace := rfl
@[simp] theorem State.setFcnt_result (v : Half) : (s.setFcnt v).result = s.result := rfl
@[simp] theorem State.setFcnt_agenda (v : Half) : (s.setFcnt v).agenda = s.agenda := rfl

@[simp] theorem State.setChIdx_keyNwk (v : BitVec 3) : (s.setChIdx v).keyNwk = s.keyNwk := rfl
@[simp] theorem State.setChIdx_keyApp (v : BitVec 3) : (s.setChIdx v).keyApp = s.keyApp := rfl
@[simp] theorem State.setChIdx_keyMesh (v : BitVec 3) : (s.setChIdx v).keyMesh = s.keyMesh := rfl
@[simp] theorem State.setChIdx_devAddr (v : BitVec 3) : (s.setChIdx v).devAddr = s.devAddr := rfl
@[simp] theorem State.setChIdx_nodeId (v : BitVec 3) : (s.setChIdx v).nodeId = s.nodeId := rfl
@[simp] theorem State.setChIdx_pktId (v : BitVec 3) : (s.setChIdx v).pktId = s.pktId := rfl
@[simp] theorem State.setChIdx_fcnt (v : BitVec 3) : (s.setChIdx v).fcnt = s.fcnt := rfl
@[simp] theorem State.setChIdx_chIdx (v : BitVec 3) : (s.setChIdx v).chIdx = v := rfl
@[simp] theorem State.setChIdx_phase (v : BitVec 3) : (s.setChIdx v).phase = s.phase := rfl
@[simp] theorem State.setChIdx_rxPend (v : BitVec 3) : (s.setChIdx v).rxPend = s.rxPend := rfl
@[simp] theorem State.setChIdx_rxBuf (v : BitVec 3) : (s.setChIdx v).rxBuf = s.rxBuf := rfl
@[simp] theorem State.setChIdx_status (v : BitVec 3) : (s.setChIdx v).status = s.status := rfl
@[simp] theorem State.setChIdx_fault (v : BitVec 3) : (s.setChIdx v).fault = s.fault := rfl
@[simp] theorem State.setChIdx_trace (v : BitVec 3) : (s.setChIdx v).trace = s.trace := rfl
@[simp] theorem State.setChIdx_result (v : BitVec 3) : (s.setChIdx v).result = s.result := rfl
@[simp] theorem State.setChIdx_agenda (v : BitVec 3) : (s.setChIdx v).agenda = s.agenda := rfl

@[simp] theorem State.setPhase_keyNwk (v : Phase) : (s.setPhase v).keyNwk = s.keyNwk := rfl
@[simp] theorem State.setPhase_keyApp (v : Phase) : (s.setPhase v).keyApp = s.keyApp := rfl
@[simp] theorem State.setPhase_keyMesh (v : Phase) : (s.setPhase v).keyMesh = s.keyMesh := rfl
@[simp] theorem State.setPhase_devAddr (v : Phase) : (s.setPhase v).devAddr = s.devAddr := rfl
@[simp] theorem State.setPhase_nodeId (v : Phase) : (s.setPhase v).nodeId = s.nodeId := rfl
@[simp] theorem State.setPhase_pktId (v : Phase) : (s.setPhase v).pktId = s.pktId := rfl
@[simp] theorem State.setPhase_fcnt (v : Phase) : (s.setPhase v).fcnt = s.fcnt := rfl
@[simp] theorem State.setPhase_chIdx (v : Phase) : (s.setPhase v).chIdx = s.chIdx := rfl
@[simp] theorem State.setPhase_phase (v : Phase) : (s.setPhase v).phase = v := rfl
@[simp] theorem State.setPhase_rxPend (v : Phase) : (s.setPhase v).rxPend = s.rxPend := rfl
@[simp] theorem State.setPhase_rxBuf (v : Phase) : (s.setPhase v).rxBuf = s.rxBuf := rfl
@[simp] theorem State.setPhase_status (v : Phase) : (s.setPhase v).status = s.status := rfl
@[simp] theorem State.setPhase_fault (v : Phase) : (s.setPhase v).fault = s.fault := rfl
@[simp] theorem State.setPhase_trace (v : Phase) : (s.setPhase v).trace = s.trace := rfl
@[simp] theorem State.setPhase_result (v : Phase) : (s.setPhase v).result = s.result := rfl
@[simp] theorem State.setPhase_agenda (v : Phase) : (s.setPhase v).agenda = s.agenda := rfl

@[simp] theorem State.setRxPend_keyNwk (v : Bool) : (s.setRxPend v).keyNwk = s.keyNwk := rfl
@[simp] theorem State.setRxPend_keyApp (v : Bool) : (s.setRxPend v).keyApp = s.keyApp := rfl
@[simp] theorem State.setRxPend_keyMesh (v : Bool) : (s.setRxPend v).keyMesh = s.keyMesh := rfl
@[simp] theorem State.setRxPend_devAddr (v : Bool) : (s.setRxPend v).devAddr = s.devAddr := rfl
@[simp] theorem State.setRxPend_nodeId (v : Bool) : (s.setRxPend v).nodeId = s.nodeId := rfl
@[simp] theorem State.setRxPend_pktId (v : Bool) : (s.setRxPend v).pktId = s.pktId := rfl
@[simp] theorem State.setRxPend_fcnt (v : Bool) : (s.setRxPend v).fcnt = s.fcnt := rfl
@[simp] theorem State.setRxPend_chIdx (v : Bool) : (s.setRxPend v).chIdx = s.chIdx := rfl
@[simp] theorem State.setRxPend_phase (v : Bool) : (s.setRxPend v).phase = s.phase := rfl
@[simp] theorem State.setRxPend_rxPend (v : Bool) : (s.setRxPend v).rxPend = v := rfl
@[simp] theorem State.setRxPend_rxBuf (v : Bool) : (s.setRxPend v).rxBuf = s.rxBuf := rfl
@[simp] theorem State.setRxPend_status (v : Bool) : (s.setRxPend v).status = s.status := rfl
@[simp] theorem State.setRxPend_fault (v : Bool) : (s.setRxPend v).fault = s.fault := rfl
@[simp] theorem State.setRxPend_trace (v : Bool) : (s.setRxPend v).trace = s.trace := rfl
@[simp] theorem State.setRxPend_result (v : Bool) : (s.setRxPend v).result = s.result := rfl
@[simp] theorem State.setRxPend_agenda (v : Bool) : (s.setRxPend v).agenda = s.agenda := rfl

@[simp] theorem State.setRxBuf_keyNwk (v : Bytes) : (s.setRxBuf v).keyNwk = s.keyNwk := rfl
@[simp] theorem State.setRxBuf_keyApp (v : Bytes) : (s.setRxBuf v).keyApp = s.keyApp := rfl
@[simp] theorem State.setRxBuf_keyMesh (v : Bytes) : (s.setRxBuf v).keyMesh = s.keyMesh := rfl
@[simp] theorem State.setRxBuf_devAddr (v : Bytes) : (s.setRxBuf v).devAddr = s.devAddr := rfl
@[simp] theorem State.setRxBuf_nodeId (v : Bytes) : (s.setRxBuf v).nodeId = s.nodeId := rfl
@[simp] theorem State.setRxBuf_pktId (v : Bytes) : (s.setRxBuf v).pktId = s.pktId := rfl
@[simp] theorem State.setRxBuf_fcnt (v : Bytes) : (s.setRxBuf v).fcnt = s.fcnt := rfl
@[simp] theorem State.setRxBuf_chIdx (v : Bytes) : (s.setRxBuf v).chIdx = s.chIdx := rfl
@[simp] theorem State.setRxBuf_phase (v : Bytes) : (s.setRxBuf v).phase = s.phase := rfl
@[simp] theorem State.setRxBuf_rxPend (v : Bytes) : (s.setRxBuf v).rxPend = s.rxPend := rfl
@[simp] theorem State.setRxBuf_rxBuf (v : Bytes) : (s.setRxBuf v).rxBuf = v := rfl
@[simp] theorem State.setRxBuf_status (v : Bytes) : (s.setRxBuf v).status = s.status := rfl
@[simp] theorem State.setRxBuf_fault (v : Bytes) : (s.setRxBuf v).fault = s.fault := rfl
@[simp] theorem State.setRxBuf_trace (v : Bytes) : (s.setRxBuf v).trace = s.trace := rfl
@[simp] theorem State.setRxBuf_result (v : Bytes) : (s.setRxBuf v).result = s.result := rfl
@[simp] theorem State.setRxBuf_agenda (v : Bytes) : (s.setRxBuf v).agenda = s.agenda := rfl

@[simp] theorem State.setStatus_keyNwk (v : Byte) : (s.setStatus v).keyNwk = s.keyNwk := rfl
@[simp] theorem State.setStatus_keyApp (v : Byte) : (s.setStatus v).keyApp = s.keyApp := rfl
@[simp] theorem State.setStatus_keyMesh (v : Byte) : (s.setStatus v).keyMesh = s.keyMesh := rfl
@[simp] theorem State.setStatus_devAddr (v : Byte) : (s.setStatus v).devAddr = s.devAddr := rfl
@[simp] theorem State.setStatus_nodeId (v : Byte) : (s.setStatus v).nodeId = s.nodeId := rfl
@[simp] theorem State.setStatus_pktId (v : Byte) : (s.setStatus v).pktId = s.pktId := rfl
@[simp] theorem State.setStatus_fcnt (v : Byte) : (s.setStatus v).fcnt = s.fcnt := rfl
@[simp] theorem State.setStatus_chIdx (v : Byte) : (s.setStatus v).chIdx = s.chIdx := rfl
@[simp] theorem State.setStatus_phase (v : Byte) : (s.setStatus v).phase = s.phase := rfl
@[simp] theorem State.setStatus_rxPend (v : Byte) : (s.setStatus v).rxPend = s.rxPend := rfl
@[simp] theorem State.setStatus_rxBuf (v : Byte) : (s.setStatus v).rxBuf = s.rxBuf := rfl
@[simp] theorem State.setStatus_status (v : Byte) : (s.setStatus v).status = v := rfl
@[simp] theorem State.setStatus_fault (v : Byte) : (s.setStatus v).fault = s.fault := rfl
@[simp] theorem State.setStatus_trace (v : Byte) : (s.setStatus v).trace = s.trace := rfl
@[simp] theorem State.setStatus_result (v : Byte) : (s.setStatus v).result = s.result := rfl
@[simp] theorem State.setStatus_agenda (v : Byte) : (s.setStatus v).agenda = s.agenda := rfl

@[simp] theorem State.setFault_keyNwk (v : Byte) : (s.setFault v).keyNwk = s.keyNwk := rfl
@[simp] theorem State.setFault_keyApp (v : Byte) : (s.setFault v).keyApp = s.keyApp := rfl
@[simp] theorem State.setFault_keyMesh (v : Byte) : (s.setFault v).keyMesh = s.keyMesh := rfl
@[simp] theorem State.setFault_devAddr (v : Byte) : (s.setFault v).devAddr = s.devAddr := rfl
@[simp] theorem State.setFault_nodeId (v : Byte) : (s.setFault v).nodeId = s.nodeId := rfl
@[simp] theorem State.setFault_pktId (v : Byte) : (s.setFault v).pktId = s.pktId := rfl
@[simp] theorem State.setFault_fcnt (v : Byte) : (s.setFault v).fcnt = s.fcnt := rfl
@[simp] theorem State.setFault_chIdx (v : Byte) : (s.setFault v).chIdx = s.chIdx := rfl
@[simp] theorem State.setFault_phase (v : Byte) : (s.setFault v).phase = s.phase := rfl
@[simp] theorem State.setFault_rxPend (v : Byte) : (s.setFault v).rxPend = s.rxPend := rfl
@[simp] theorem State.setFault_rxBuf (v : Byte) : (s.setFault v).rxBuf = s.rxBuf := rfl
@[simp] theorem State.setFault_status (v : Byte) : (s.setFault v).status = s.status := rfl
@[simp] theorem State.setFault_fault (v : Byte) : (s.setFault v).fault = v := rfl
@[simp] theorem State.setFault_trace (v : Byte) : (s.setFault v).trace = s.trace := rfl
@[simp] theorem State.setFault_result (v : Byte) : (s.setFault v).result = s.result := rfl
@[simp] theorem State.setFault_agenda (v : Byte) : (s.setFault v).agenda = s.agenda := rfl

@[simp] theorem State.setResult_keyNwk (v : Option Bytes) : (s.setResult v).keyNwk = s.keyNwk := rfl
@[simp] theorem State.setResult_keyApp (v : Option Bytes) : (s.setResult v).keyApp = s.keyApp := rfl
@[simp] theorem State.setResult_keyMesh (v : Option Bytes) : (s.setResult v).keyMesh = s.keyMesh := rfl
@[simp] theorem State.setResult_devAddr (v : Option Bytes) : (s.setResult v).devAddr = s.devAddr := rfl
@[simp] theorem State.setResult_nodeId (v : Option Bytes) : (s.setResult v).nodeId = s.nodeId := rfl
@[simp] theorem State.setResult_pktId (v : Option Bytes) : (s.setResult v).pktId = s.pktId := rfl
@[simp] theorem State.setResult_fcnt (v : Option Bytes) : (s.setResult v).fcnt = s.fcnt := rfl
@[simp] theorem State.setResult_chIdx (v : Option Bytes) : (s.setResult v).chIdx = s.chIdx := rfl
@[simp] theorem State.setResult_phase (v : Option Bytes) : (s.setResult v).phase = s.phase := rfl
@[simp] theorem State.setResult_rxPend (v : Option Bytes) : (s.setResult v).rxPend = s.rxPend := rfl
@[simp] theorem State.setResult_rxBuf (v : Option Bytes) : (s.setResult v).rxBuf = s.rxBuf := rfl
@[simp] theorem State.setResult_status (v : Option Bytes) : (s.setResult v).status = s.status := rfl
@[simp] theorem State.setResult_fault (v : Option Bytes) : (s.setResult v).fault = s.fault := rfl
@[simp] theorem State.setResult_trace (v : Option Bytes) : (s.setResult v).trace = s.trace := rfl
@[simp] theorem State.setResult_result (v : Option Bytes) : (s.setResult v).result = v := rfl
@[simp] theorem State.setResult_agenda (v : Option Bytes) : (s.setResult v).agenda = s.agenda := rfl

@[simp] theorem State.setAgenda_keyNwk (v : List Turn) : (s.setAgenda v).keyNwk = s.keyNwk := rfl
@[simp] theorem State.setAgenda_keyApp (v : List Turn) : (s.setAgenda v).keyApp = s.keyApp := rfl
@[simp] theorem State.setAgenda_keyMesh (v : List Turn) : (s.setAgenda v).keyMesh = s.keyMesh := rfl
@[simp] theorem State.setAgenda_devAddr (v : List Turn) : (s.setAgenda v).devAddr = s.devAddr := rfl
@[simp] theorem State.setAgenda_nodeId (v : List Turn) : (s.setAgenda v).nodeId = s.nodeId := rfl
@[simp] theorem State.setAgenda_pktId (v : List Turn) : (s.setAgenda v).pktId = s.pktId := rfl
@[simp] theorem State.setAgenda_fcnt (v : List Turn) : (s.setAgenda v).fcnt = s.fcnt := rfl
@[simp] theorem State.setAgenda_chIdx (v : List Turn) : (s.setAgenda v).chIdx = s.chIdx := rfl
@[simp] theorem State.setAgenda_phase (v : List Turn) : (s.setAgenda v).phase = s.phase := rfl
@[simp] theorem State.setAgenda_rxPend (v : List Turn) : (s.setAgenda v).rxPend = s.rxPend := rfl
@[simp] theorem State.setAgenda_rxBuf (v : List Turn) : (s.setAgenda v).rxBuf = s.rxBuf := rfl
@[simp] theorem State.setAgenda_status (v : List Turn) : (s.setAgenda v).status = s.status := rfl
@[simp] theorem State.setAgenda_fault (v : List Turn) : (s.setAgenda v).fault = s.fault := rfl
@[simp] theorem State.setAgenda_trace (v : List Turn) : (s.setAgenda v).trace = s.trace := rfl
@[simp] theorem State.setAgenda_result (v : List Turn) : (s.setAgenda v).result = s.result := rfl
@[simp] theorem State.setAgenda_agenda (v : List Turn) : (s.setAgenda v).agenda = v := rfl

@[simp] theorem State.emit_keyNwk (v : Action) : (s.emit v).keyNwk = s.keyNwk := rfl
@[simp] theorem State.emit_keyApp (v : Action) : (s.emit v).keyApp = s.keyApp := rfl
@[simp] theorem State.emit_keyMesh (v : Action) : (s.emit v).keyMesh = s.keyMesh := rfl
@[simp] theorem State.emit_devAddr (v : Action) : (s.emit v).devAddr = s.devAddr := rfl
@[simp] theorem State.emit_nodeId (v : Action) : (s.emit v).nodeId = s.nodeId := rfl
@[simp] theorem State.emit_pktId (v : Action) : (s.emit v).pktId = s.pktId := rfl
@[simp] theorem State.emit_fcnt (v : Action) : (s.emit v).fcnt = s.fcnt := rfl
@[simp] theorem State.emit_chIdx (v : Action) : (s.emit v).chIdx = s.chIdx := rfl
@[simp] theorem State.emit_phase (v : Action) : (s.emit v).phase = s.phase := rfl
@[simp] theorem State.emit_rxPend (v : Action) : (s.emit v).rxPend = s.rxPend := rfl
@[simp] theorem State.emit_rxBuf (v : Action) : (s.emit v).rxBuf = s.rxBuf := rfl
@[simp] theorem State.emit_status (v : Action) : (s.emit v).status = s.status := rfl
@[simp] theorem State.emit_fault (v : Action) : (s.emit v).fault = s.fault := rfl
@[simp] theorem State.emit_trace (v : Action) : (s.emit v).trace = s.trace ++ [v] := rfl
@[simp] theorem State.emit_result (v : Action) : (s.emit v).result = s.result := rfl
@[simp] theorem State.emit_agenda (v : Action) : (s.emit v).agenda = s.agenda := rfl

end Sys2Proof.Machine
end

