-- ==== Sys2Proof/Laws/Ops.lean ====
section
/-! SUPPORT. What each shared operation can do, said once. -/

namespace Sys2Proof.Machine

variable {s t : State}

/-- `MAX_PAYLOAD ≤ 246` (R11). -/
theorem maxPayload_le : Config.maxPayload ≤ 246 := Nat.le_of_lt_succ Config.maxPayloadBounded.isLt

theorem raise_eq (c : FaultCode) (s : State) : raise c s = .next { s with fault := c.code, result := none } := rfl

theorem FaultCode.code_ne_zero (c : FaultCode) : c.code ≠ 0 := by cases c <;> decide

theorem FaultCode.code_le_five (c : FaultCode) : c.code.toNat ≤ 5 := by cases c <;> decide

theorem whenRunning_safe (h : s.fault = 0#8) (k : Outcome) : whenRunning s k = k := if_pos h

theorem whenRunning_stuck (h : s.fault ≠ 0#8) (k : Outcome) : whenRunning s k = .next s := if_neg h

/-- A guarded step answers the guarded outcome in a core without a fault, and otherwise the state it began in. -/
theorem whenRunning_cases {k : Outcome} (h : whenRunning s k = .next t) :
    (s.fault = 0#8 ∧ k = .next t) ∨ (s.fault ≠ 0#8 ∧ t = s) := by
  unfold whenRunning at h
  split at h
  · exact .inl ⟨‹_›, h⟩
  · cases h
    exact .inr ⟨‹_›, rfl⟩

@[simp] theorem firstFailure_nil : firstFailure [] = none := rfl

@[simp] theorem firstFailure_pass (c : FaultCode) (rest : List (Bool × FaultCode)) :
    firstFailure ((true, c) :: rest) = firstFailure rest := rfl

@[simp] theorem firstFailure_fail (c : FaultCode) (rest : List (Bool × FaultCode)) :
    firstFailure ((false, c) :: rest) = some c := rfl

/-- The checks all hold exactly when none is reported. -/
theorem firstFailure_eq_none_iff (checks : List (Bool × FaultCode)) :
    firstFailure checks = none ↔ ∀ x ∈ checks, x.1 = true := by
  induction checks with
  | nil => simp
  | cons x rest ih =>
    obtain ⟨ok, c⟩ := x
    cases ok <;> simp [ih]

/-- A command whose checks hold returns its result and writes nothing else (R60). -/
theorem command_completes (h : s.fault = 0#8) {checks : List (Bool × FaultCode)} (hc : firstFailure checks = none)
    (r : Bytes) : command checks r s = .next { s with result := some r } := by
  rw [command, whenRunning_safe h, hc]
  rfl

/-- A command with a failing check raises the first one's fault (R252, R255). -/
theorem command_faults (h : s.fault = 0#8) {checks : List (Bool × FaultCode)} {c : FaultCode}
    (hc : firstFailure checks = some c) (r : Bytes) :
    command checks r s = .next { s with fault := c.code, result := none } := by
  rw [command, whenRunning_safe h, hc]
  rfl

/-- A command in a faulted core has no step (R253). -/
theorem command_stuck (h : s.fault ≠ 0#8) (checks : List (Bool × FaultCode)) (r : Bytes) :
    command checks r s = .next s := whenRunning_stuck h _

/-- Everything a command can do. -/
theorem command_cases {checks : List (Bool × FaultCode)} {r : Bytes} (h : command checks r s = .next t) :
    (s.fault ≠ 0#8 ∧ t = s) ∨
    (s.fault = 0#8 ∧ firstFailure checks = none ∧ t = { s with result := some r }) ∨
    (s.fault = 0#8 ∧ ∃ c, firstFailure checks = some c ∧ t = { s with fault := c.code, result := none }) := by
  by_cases hf : s.fault = 0#8
  · cases hc : firstFailure checks with
    | none =>
      rw [command_completes hf hc] at h
      cases h
      exact .inr (.inl ⟨hf, rfl, rfl⟩)
    | some c =>
      rw [command_faults hf hc] at h
      cases h
      exact .inr (.inr ⟨hf, c, rfl, rfl⟩)
  · rw [command_stuck hf] at h
    cases h
    exact .inl ⟨hf, rfl⟩

/-- A command always answers a next state. -/
theorem command_answers (checks : List (Bool × FaultCode)) (r : Bytes) (s : State) :
    ∃ t, command checks r s = .next t := by
  unfold command whenRunning raise
  split
  · split
    · exact ⟨_, rfl⟩
    · exact ⟨_, rfl⟩
  · exact ⟨_, rfl⟩

theorem illegalCommand_safe (h : s.fault = 0#8) :
    illegalCommand s = .next { s with fault := 0x01#8, result := none } := whenRunning_safe h _

theorem illegalCommand_stuck (h : s.fault ≠ 0#8) : illegalCommand s = .next s := whenRunning_stuck h _

/-- Reset does not look at the state it begins in, but for the turns to come (R281, R282). -/
theorem resetTo_eq (p : Word) (f : Half) (c : BitVec 3) (s : State) :
    resetTo p f c s = { State.reset with pktId := p, fcnt := f, chIdx := c, agenda := s.agenda } := rfl

/-- The numbers 0x00 to 0x08 are assigned and no other is (R20, R227). -/
theorem readReg_isSome_iff (s : State) (n : Byte) : (readReg s n).isSome = true ↔ n.toNat ≤ 8 := by
  unfold readReg
  split <;> simp_all
  omega

theorem nextTurn_nil (h : s.agenda = []) : nextTurn s = .own := by rw [nextTurn, h]

theorem nextTurn_cons {u : Turn} {us : List Turn} (h : s.agenda = u :: us) : nextTurn s = u := by rw [nextTurn, h]

theorem afterFetch_eq (s : State) : afterFetch s = { s with result := none, agenda := s.agenda.tail } := rfl

end Sys2Proof.Machine
end

