-- ==== Sys2Proof/Laws/Controller.lean ====
section
/-! SUPPORT. What the controller's shared operations do, and what each event can do. -/

namespace Sys2Proof.Machine

variable {s t : State}

theorem resumeListening_eq (s : State) : resumeListening s =
    { s with trace := s.trace ++ [.cfg Config.cfgTempestRx] ++ [.startRx], phase := .listenIdle } := rfl

theorem lwanHandoff_eq (s : State) : lwanHandoff s =
    { s with
      trace := s.trace ++ [.cfg (Config.cfgLwanTx s.chIdx.toFin)] ++ [.tx (lwanFrame s)],
      fcnt := s.fcnt + 1, chIdx := s.chIdx + 1, phase := .lwanTx } := rfl

theorem meshHandoff_eq (s : State) : meshHandoff s =
    { s with
      trace := s.trace ++ [.cfg Config.cfgMeshTx] ++ [.tx (meshPacket s)],
      pktId := s.pktId + 1, phase := .meshTx } := rfl

theorem dispatchEnabled_iff (s : State) :
    dispatchEnabled s = true ↔ s.fault = 0#8 ∧ s.phase = .listenIdle ∧ s.rxPend = true := by
  simp [dispatchEnabled, and_assoc]

theorem payloadOk_iff (p : Bytes) : payloadOk p = true ↔ p.length ≤ Config.maxPayload := by simp [payloadOk]

/-- Everything the answer to a read can do (R216, R221). -/
theorem execEvRdresp_cases {ok : Bool} {data : Bytes} {n rssi snr : Nat}
    (h : execEvRdresp ok data n rssi snr s = .next t) :
    (s.fault ≠ 0#8 ∧ t = s) ∨
    (s.fault = 0#8 ∧ ∃ c, t = { s with fault := FaultCode.code c, result := none }) ∨
    (s.fault = 0#8 ∧ s.phase = .listenRead ∧ ok = false ∧
      t = resumeListening (s.setStatus (setRdFail s.status true))) ∨
    (s.fault = 0#8 ∧ s.phase = .listenRead ∧ ok = true ∧ n = data.length ∧ data.length ≤ Config.maxPayload ∧
      t = lwanHandoff ((s.setStatus (setRdFail s.status false)).setRxBuf data)) := by
  rcases whenRunning_cases h with ⟨hf, h⟩ | ⟨hf, rfl⟩
  · refine .inr ?_
    split at h
    · cases h
      exact .inl ⟨hf, _, rfl⟩
    · rename_i hp
      have hp : s.phase = .listenRead := by simpa using hp
      split at h
      · cases h
        exact .inr (.inl ⟨hf, hp, ‹_›, rfl⟩)
      · rename_i hok
        split at h
        · cases h
          exact .inl ⟨hf, _, rfl⟩
        · rename_i hn
          split at h
          · cases h
            exact .inl ⟨hf, _, rfl⟩
          · rename_i hm
            cases h
            exact .inr (.inr ⟨hf, hp, by simpa using hok, by simpa using hn,
              (payloadOk_iff _).1 (by simpa using hm), rfl⟩)
  · exact .inl ⟨hf, rfl⟩

/-- Everything the answer to a transmit can do (R216, R223, R225). -/
theorem execEvTxresp_cases {ok : Bool} (h : execEvTxresp ok s = .next t) :
    (s.fault ≠ 0#8 ∧ t = s) ∨
    (s.fault = 0#8 ∧ ∃ c, t = { s with fault := FaultCode.code c, result := none }) ∨
    (s.fault = 0#8 ∧ s.phase = .lwanTx ∧ t = meshHandoff (s.setStatus (setLwTxFail s.status (!ok)))) ∨
    (s.fault = 0#8 ∧ s.phase = .meshTx ∧
      t = resumeListening ((s.setStatus (setMsTxFail s.status (!ok))).setRxBuf [])) := by
  rcases whenRunning_cases h with ⟨hf, h⟩ | ⟨hf, rfl⟩
  · refine .inr ?_
    split at h <;> rename_i hp <;> cases h
    · exact .inr (.inl ⟨hf, hp, rfl⟩)
    · exact .inr (.inr ⟨hf, hp, rfl⟩)
    · exact .inl ⟨hf, _, rfl⟩
    · exact .inl ⟨hf, _, rfl⟩
  · exact .inl ⟨hf, rfl⟩

/-- Everything the internal step can do (R220). -/
theorem execCtlDispatch_cases (h : execCtlDispatch s = .next t) :
    (dispatchEnabled s = false ∧ t = s) ∨
    (dispatchEnabled s = true ∧ t = { s with rxPend := false, trace := s.trace ++ [.read], phase := .listenRead }) := by
  unfold execCtlDispatch at h
  split at h <;> rename_i he <;> cases h
  · exact .inr ⟨he, rfl⟩
  · exact .inl ⟨by simpa using he, rfl⟩

/-- Everything the receive-complete signal can do (R218). -/
theorem execEvRxsig_cases (h : execEvRxsig s = .next t) :
    (s.fault ≠ 0#8 ∧ t = s) ∨ (s.fault = 0#8 ∧ t = { s with rxPend := true }) := by
  rcases whenRunning_cases h with ⟨hf, h⟩ | ⟨hf, rfl⟩
  · cases h
    exact .inr ⟨hf, rfl⟩
  · exact .inl ⟨hf, rfl⟩

end Sys2Proof.Machine
end

