-- ==== Sys2Proof/Laws/Decode.lean ====
section
/-! SUPPORT. The fields of the words the encoder makes, and the rows of the code table. -/

namespace Sys2Proof

/-- The bits of a word by its fields (R70). -/
theorem getLsbD_wordOf (code imm : Byte) (i : Nat) :
    (wordOf code imm).getLsbD i = if i < 8 then code.getLsbD i else if i < 16 then imm.getLsbD (i - 8) else false := by
  by_cases h8 : i < 8
  · simp [wordOf, h8]
    omega
  · by_cases h16 : i < 16
    · simp [wordOf, h8, h16, show i < 32 by omega, BitVec.getLsbD_of_ge code i (by omega)]
    · simp [wordOf, h8, h16, BitVec.getLsbD_of_ge code i (by omega), BitVec.getLsbD_of_ge imm (i - 8) (by omega)]

@[simp] theorem codeField_wordOf (code imm : Byte) : codeField (wordOf code imm) = code := by
  ext i hi
  simp [codeField, getLsbD_wordOf, hi]

@[simp] theorem immField_wordOf (code imm : Byte) : immField (wordOf code imm) = imm := by
  ext i hi
  simp [immField, getLsbD_wordOf, show 8 + i < 16 by omega, BitVec.getLsbD_eq_getElem hi]

@[simp] theorem rsvField_wordOf (code imm : Byte) : rsvField (wordOf code imm) = 0#16 := by
  ext i hi
  simp [rsvField, getLsbD_wordOf, show ¬ 16 + i < 8 by omega]

/-- A word whose `RSV` is zero is the word of its two other fields (R70). -/
theorem wordOf_fields (w : Word) (h : rsvField w = 0#16) : wordOf (codeField w) (immField w) = w := by
  refine BitVec.eq_of_getLsbD_eq fun i hi => ?_
  rw [getLsbD_wordOf]
  split
  · simp [codeField, *]
  · split
    · simp [immField, show i - 8 < 8 by omega, show 8 + (i - 8) = i by omega]
    · have hb := congrArg (fun v : Half => v.getLsbD (i - 16)) h
      simp only [rsvField, BitVec.getLsbD_extractLsb', show 16 + (i - 16) = i by omega] at hb
      simpa [show i - 16 < 16 by omega] using hb.symm

@[simp] theorem okOf_immOfOk (ok : Bool) : okOf (immOfOk ok) = ok := by cases ok <;> decide

@[simp] theorem immAllowed_okBit (ok : Bool) : immAllowed .okBit (immOfOk ok) = true := by cases ok <;> decide

/-- Decoding a word with `RSV` zero whose code has a row, on the row's port, with an `IMM8` that R73 allows. -/
theorem decode_wordOf {code imm : Byte} {r : Row} (o : Operands) (hc : code ≠ 0xC0#8) (hr : rowOf code = some r)
    (hi : immAllowed r.imm imm = true) : decode r.port (wordOf code imm) o = .ok (r.build imm o) := by
  rw [decode, rsvField_wordOf, codeField_wordOf, immField_wordOf, hr]
  simp only [ne_eq, not_true_eq_false, if_false, if_neg hc, hi]
  rfl

end Sys2Proof
end

