-- ==== Sys2Proof/Laws/Registers.lean ====
section
/-! SUPPORT. What a register read and a reset can do. -/

namespace Sys2Proof.Machine

variable {s t : State}

/-- Everything `REG.READ` can do (R227, R253). -/
theorem execRegRead_cases {n : Byte} (h : execRegRead n s = .next t) :
    (∃ x, readReg s n = some x ∧ t = { s with result := some (le32 x) }) ∨
    (readReg s n = none ∧ s.fault = 0#8 ∧ t = { s with fault := 0x02#8, result := none }) ∨
    (readReg s n = none ∧ s.fault ≠ 0#8 ∧ t = s) := by
  unfold execRegRead at h
  split at h
  · cases h
    exact .inl ⟨_, ‹_›, rfl⟩
  · rcases whenRunning_cases h with ⟨hf, h⟩ | ⟨hf, rfl⟩
    · cases h
      exact .inr (.inl ⟨‹_›, hf, rfl⟩)
    · exact .inr (.inr ⟨‹_›, hf, rfl⟩)

/-- Everything `EV.RESET` can do (R280 to R282, R253). -/
theorem execEvReset_cases {p : Word} {f : Half} {c : Byte} (h : execEvReset p f c s = .next t) :
    (c.toNat ≤ 7 ∧ t = resetTo p f (c.setWidth 3) s) ∨
    (7 < c.toNat ∧ s.fault = 0#8 ∧ t = { s with fault := 0x02#8, result := none }) ∨
    (7 < c.toNat ∧ s.fault ≠ 0#8 ∧ t = s) := by
  unfold execEvReset at h
  split at h
  · cases h
    exact .inl ⟨‹_›, rfl⟩
  · rename_i hc
    rcases whenRunning_cases h with ⟨hf, h⟩ | ⟨hf, rfl⟩
    · cases h
      exact .inr (.inl ⟨by omega, hf, rfl⟩)
    · exact .inr (.inr ⟨by omega, hf, rfl⟩)

end Sys2Proof.Machine
end

