-- ==== Sys2Proof/Laws/Exec.lean ====
section
/-! SUPPORT. What an instruction can do, said once for all of them, and the checks of the commands as propositions. -/

namespace Sys2Proof.Machine

variable {s t : State}

theorem keyOk_iff (k : Bytes) : keyOk k = true ↔ k.length = 16 := by simp [keyOk]

theorem keyOk_eq_false_iff (k : Bytes) : keyOk k = false ↔ k.length ≠ 16 := by simp [keyOk]

theorem blockOk_iff (p : Bytes) : blockOk p = true ↔ p.length = 16 := by simp [blockOk]

theorem blockOk_eq_false_iff (p : Bytes) : blockOk p = false ↔ p.length ≠ 16 := by simp [blockOk]

theorem scheduleOk_iff (k : Bytes) : scheduleOk k = true ↔ k.length = 176 := by simp [scheduleOk]

theorem scheduleOk_eq_false_iff (k : Bytes) : scheduleOk k = false ↔ k.length ≠ 176 := by simp [scheduleOk]

theorem payloadOk_eq_false_iff (p : Bytes) : payloadOk p = false ↔ Config.maxPayload < p.length := by simp [payloadOk]

/-- 255 blocks are 4080 bytes (R145). -/
theorem blocksOk_iff (d : Bytes) : blocksOk d = true ↔ d.length ≤ 4080 := by
  rw [blocksOk, decide_eq_true_iff, blockCount]
  omega

theorem blocksOk_eq_false_iff (d : Bytes) : blocksOk d = false ↔ 4080 < d.length := by
  rw [← Bool.not_eq_true, blocksOk_iff, Nat.not_le]

theorem exec_aesKeyexp (k : Bytes) (s : State) :
    exec (.aesKeyexp k) s = command [(keyOk k, .badOperand)] (keyExpand k) s := rfl

theorem exec_aesEncrk (sched p : Bytes) (s : State) :
    exec (.aesEncrk sched p) s =
      command [(scheduleOk sched, .badOperand), (blockOk p, .badOperand)] (encryptBlock sched p) s := rfl

theorem exec_aesEnc (k p : Bytes) (s : State) :
    exec (.aesEnc k p) s = command [(keyOk k, .badOperand), (blockOk p, .badOperand)] (aes k p) s := rfl

theorem exec_ctrSimple (k : Bytes) (pid sid : Word) (d : Bytes) (s : State) :
    exec (.ctrSimple k pid sid d) s = command [(keyOk k, .badOperand)] (ctrSimple k pid sid d) s := rfl

theorem exec_ctrLwan (dir : Byte) (k : Bytes) (addr : Word) (fc : Half) (d : Bytes) (s : State) :
    exec (.ctrLwan dir k addr fc d) s =
      command [(keyOk k, .badOperand), (blocksOk d, .ctrRange)] (ctrLwan k dir addr fc d) s := rfl

theorem exec_cmacSubkeys (k : Bytes) (s : State) :
    exec (.cmacSubkeys k) s = command [(keyOk k, .badOperand)] (cmacK1 k ++ cmacK2 k) s := rfl

theorem exec_cmacTag (k m : Bytes) (s : State) :
    exec (.cmacTag k m) s = command [(keyOk k, .badOperand)] (cmac k m) s := rfl

theorem exec_pbEnc (port : Word) (p : Bytes) (s : State) :
    exec (.pbEnc port p) s = command [] (pbEnc port p) s := rfl

theorem exec_lwBuild (kn ka : Bytes) (addr : Word) (fc : Half) (p : Bytes) (s : State) :
    exec (.lwBuild kn ka addr fc p) s =
      command [(keyOk kn, .badOperand), (keyOk ka, .badOperand), (payloadOk p, .oversize)] (lwBuild kn ka addr fc p) s :=
  rfl

theorem exec_msBuild (km : Bytes) (sid pid : Word) (p : Bytes) (s : State) :
    exec (.msBuild km sid pid p) s =
      command [(keyOk km, .badOperand), (payloadOk p, .oversize)] (msBuild Config.meshFlags km sid pid p) s := rfl

/-- Every command but `REG.READ` is some list of checks followed by some result, neither of them read from the state (R60). -/
theorem exec_command (i : Instr) (hc : isCommand i = true) (hr : isRegRead i = false) :
    ∃ checks r, ∀ s, exec i s = command checks r s := by
  cases i
  case aesKeyexp k => exact ⟨_, _, exec_aesKeyexp k⟩
  case aesEncrk k p => exact ⟨_, _, exec_aesEncrk k p⟩
  case aesEnc k p => exact ⟨_, _, exec_aesEnc k p⟩
  case ctrSimple k a b d => exact ⟨_, _, exec_ctrSimple k a b d⟩
  case ctrLwan dir k a f d => exact ⟨_, _, exec_ctrLwan dir k a f d⟩
  case cmacSubkeys k => exact ⟨_, _, exec_cmacSubkeys k⟩
  case cmacTag k m => exact ⟨_, _, exec_cmacTag k m⟩
  case pbEnc n p => exact ⟨_, _, exec_pbEnc n p⟩
  case lwBuild kn ka a f p => exact ⟨_, _, exec_lwBuild kn ka a f p⟩
  case msBuild km a b p => exact ⟨_, _, exec_msBuild km a b p⟩
  all_goals first | exact Bool.noConfusion hc | exact Bool.noConfusion hr

/-- What an instruction does when it answers a next state: it leaves the core where it is; or it records a fault; or it
returns a result; or it is one of the transitions of R210, the signal of R218 or a reset. -/
inductive Effect (i : Instr) (s : State) : State → Prop where
  | none : Effect i s s
  | faulted (c : FaultCode) : s.fault = 0#8 → Effect i s { s with fault := c.code, result := .none }
  | returned (r : Bytes) : isCommand i = true → Effect i s { s with result := some r }
  | signalled : i = .evRxsig → s.fault = 0#8 → Effect i s { s with rxPend := true }
  | dispatched : i = .ctlDispatch → s.fault = 0#8 → s.phase = .listenIdle → s.rxPend = true →
    Effect i s { s with rxPend := false, trace := s.trace ++ [.read], phase := .listenRead }
  | readFailed (d : Bytes) (n r q : Nat) : i = .evRdresp false d n r q → s.fault = 0#8 → s.phase = .listenRead →
    Effect i s (resumeListening (s.setStatus (setRdFail s.status true)))
  | readAccepted (d : Bytes) (r q : Nat) : i = .evRdresp true d d.length r q → s.fault = 0#8 → s.phase = .listenRead →
    d.length ≤ Config.maxPayload →
    Effect i s (lwanHandoff ((s.setStatus (setRdFail s.status false)).setRxBuf d))
  | lwanSent (ok : Bool) : i = .evTxresp ok → s.fault = 0#8 → s.phase = .lwanTx →
    Effect i s (meshHandoff (s.setStatus (setLwTxFail s.status (!ok))))
  | meshSent (ok : Bool) : i = .evTxresp ok → s.fault = 0#8 → s.phase = .meshTx →
    Effect i s (resumeListening ((s.setStatus (setMsTxFail s.status (!ok))).setRxBuf []))
  | reset (p : Word) (f : Half) (c : Byte) : i = .evReset p f c → c.toNat ≤ 7 →
    Effect i s (resetTo p f (c.setWidth 3) s)

/-- Everything an instruction can do. -/
theorem exec_cases {i : Instr} (h : exec i s = .next t) : Effect i s t := by
  by_cases hc : isCommand i = true
  · by_cases hr : isRegRead i = true
    · cases i <;> cases hr
      rename_i n
      rcases execRegRead_cases (show execRegRead n s = _ from h) with ⟨x, _, rfl⟩ | ⟨_, hf, rfl⟩ | ⟨_, _, rfl⟩
      · exact .returned _ rfl
      · exact .faulted .badOperand hf
      · exact .none
    · obtain ⟨checks, r, he⟩ := exec_command i hc (by simpa using hr)
      rw [he] at h
      rcases command_cases h with ⟨_, rfl⟩ | ⟨_, _, rfl⟩ | ⟨hf, c, _, rfl⟩
      · exact .none
      · exact .returned _ hc
      · exact .faulted c hf
  · cases i <;> first | exact absurd rfl hc | skip
    case evReset p f c =>
      rcases execEvReset_cases (show execEvReset p f c s = _ from h) with ⟨hc, rfl⟩ | ⟨_, hf, rfl⟩ | ⟨_, _, rfl⟩
      · exact .reset _ _ _ rfl hc
      · exact .faulted .badOperand hf
      · exact .none
    case evRxsig =>
      rcases execEvRxsig_cases (show execEvRxsig s = _ from h) with ⟨_, rfl⟩ | ⟨hf, rfl⟩
      · exact .none
      · exact .signalled rfl hf
    case evRdresp ok d n r q =>
      rcases execEvRdresp_cases (show execEvRdresp ok d n r q s = _ from h) with
        ⟨_, rfl⟩ | ⟨hf, c, rfl⟩ | ⟨hf, hp, rfl, rfl⟩ | ⟨hf, hp, rfl, rfl, hd, rfl⟩
      · exact .none
      · exact .faulted c hf
      · exact .readFailed d n r q rfl hf hp
      · exact .readAccepted d r q rfl hf hp hd
    case evTxresp ok =>
      rcases execEvTxresp_cases (show execEvTxresp ok s = _ from h) with
        ⟨_, rfl⟩ | ⟨hf, c, rfl⟩ | ⟨hf, hp, rfl⟩ | ⟨hf, hp, rfl⟩
      · exact .none
      · exact .faulted c hf
      · exact .lwanSent ok rfl hf hp
      · exact .meshSent ok rfl hf hp
    case ctlDispatch =>
      rcases execCtlDispatch_cases (show execCtlDispatch s = _ from h) with ⟨_, rfl⟩ | ⟨he, rfl⟩
      · exact .none
      · obtain ⟨hf, hp, hr⟩ := (dispatchEnabled_iff s).1 he
        exact .dispatched rfl hf hp hr

/-- Everything a step can do: the effect of the instruction its turn decodes to, or that of an illegal word (R62, R75). -/
theorem step_cases (h : step s = .next t) :
    (∃ i, decodeTurn (nextTurn s) = .ok i ∧ Effect i (afterFetch s) t) ∨
    (s.fault = 0#8 ∧ t = { afterFetch s with fault := 0x01#8, result := none }) ∨
    (s.fault ≠ 0#8 ∧ t = afterFetch s) := by
  unfold step at h
  split at h
  · exact .inl ⟨_, ‹_›, exec_cases h⟩
  · rcases whenRunning_cases h with ⟨hf, h⟩ | ⟨hf, rfl⟩
    · cases h
      exact .inr (.inl ⟨hf, rfl⟩)
    · exact .inr (.inr ⟨hf, rfl⟩)

end Sys2Proof.Machine
end

