-- ==== Sys2Proof/Laws/PerInstr.lean ====
section
/-! SUPPORT. Facts about every instruction as syntax, one lemma per constructor. -/

/-- The word of an instruction has `RSV` zero (R70) and a code in the range of the port it goes to (R71); the internal step
has no word. -/
def Sys2Proof.Laws.EncodedWord.Statement (i : Sys2Proof.Instr) : Prop :=
  match Sys2Proof.encode i with
  | .input .command w _ => Sys2Proof.rsvField w = 0#16 ∧ 0x01 ≤ Sys2Proof.codeField w ∧ Sys2Proof.codeField w ≤ 0x7F
  | .input .event w _ => Sys2Proof.rsvField w = 0#16 ∧ 0x80 ≤ Sys2Proof.codeField w ∧ Sys2Proof.codeField w ≤ 0xBF
  | .own => i = .ctlDispatch

namespace Sys2Proof.Laws.EncodedWord

theorem aesKeyexp (k : Bytes) : Statement (.aesKeyexp k) := by simp [Statement, encode]

theorem aesEncrk (sched p : Bytes) : Statement (.aesEncrk sched p) := by simp [Statement, encode]

theorem aesEnc (k p : Bytes) : Statement (.aesEnc k p) := by simp [Statement, encode]

theorem ctrSimple (k : Bytes) (pid sid : Word) (d : Bytes) : Statement (.ctrSimple k pid sid d) := by
  simp [Statement, encode]

theorem ctrLwan (dir : Byte) (k : Bytes) (addr : Word) (fc : Half) (d : Bytes) :
    Statement (.ctrLwan dir k addr fc d) := by simp [Statement, encode]

theorem cmacSubkeys (k : Bytes) : Statement (.cmacSubkeys k) := by simp [Statement, encode]

theorem cmacTag (k m : Bytes) : Statement (.cmacTag k m) := by simp [Statement, encode]

theorem pbEnc (port : Word) (p : Bytes) : Statement (.pbEnc port p) := by simp [Statement, encode]

theorem lwBuild (kn ka : Bytes) (addr : Word) (fc : Half) (p : Bytes) : Statement (.lwBuild kn ka addr fc p) := by
  simp [Statement, encode]

theorem msBuild (km : Bytes) (sid pid : Word) (p : Bytes) : Statement (.msBuild km sid pid p) := by
  simp [Statement, encode]

theorem regRead (regno : Byte) : Statement (.regRead regno) := by simp [Statement, encode]

theorem evReset (p : Word) (f : Half) (c : Byte) : Statement (.evReset p f c) := by simp [Statement, encode]

theorem evRxsig : Statement .evRxsig := by simp [Statement, encode]

theorem evRdresp (ok : Bool) (data : Bytes) (n rssi snr : Nat) : Statement (.evRdresp ok data n rssi snr) := by
  simp [Statement, encode]

theorem evTxresp (ok : Bool) : Statement (.evTxresp ok) := by simp [Statement, encode]

theorem ctlDispatch : Statement .ctlDispatch := rfl

end Sys2Proof.Laws.EncodedWord
end

