-- ==== Sys2Proof/Laws/Stream.lean ====
section
/-! SUPPORT. The stream XOR of R140 block by block. -/

namespace Sys2Proof.Machine

@[simp] theorem xorStream_nil (ks : Nat → Bytes) : xorStream ks [] = [] := rfl

theorem segment_succ_succ (d : Bytes) (i : Nat) : segment d (i + 2) = segment (d.drop 16) (i + 1) := by
  simp only [segment, slice, List.drop_drop]
  congr 2
  omega

/-- A stream longer than nothing is its first segment and the stream of the rest with the next keystream blocks. -/
theorem xorStream_step (ks : Nat → Bytes) {d : Bytes} (h : d ≠ []) :
    xorStream ks d = xorBytes (d.take 16) (ks 1) ++ xorStream (fun i => ks (i + 1)) (d.drop 16) := by
  have hpos : 0 < d.length := List.length_pos_iff.2 h
  have hcount : blockCount d.length = blockCount (d.drop 16).length + 1 := by
    rw [List.length_drop]
    unfold blockCount
    omega
  unfold xorStream
  rw [hcount, List.range'_succ, List.flatMap_cons]
  congr 1
  rw [show List.range' (1 + 1) (blockCount (d.drop 16).length) =
    (List.range' 1 (blockCount (d.drop 16).length)).map (1 + ·) by
      rw [List.map_add_range']]
  rw [List.flatMap_map]
  refine List.flatMap_congr fun i hi => ?_
  obtain ⟨j, rfl⟩ : ∃ j, i = j + 1 := ⟨i - 1, by have := (List.mem_range'_1.1 hi).1; omega⟩
  rw [show 1 + (j + 1) = j + 2 by omega, segment_succ_succ]

/-- The stream keeps the length of the data where every keystream block is whole (R140). -/
theorem length_xorStream (ks : Nat → Bytes) (hk : ∀ i, (ks i).length = 16) (d : Bytes) :
    (xorStream ks d).length = d.length := by
  induction hn : d.length using Nat.strong_induction_on generalizing ks d with
  | _ n ih =>
    by_cases hd : d = []
    · subst hd
      simpa using hn
    · have hpos : 0 < d.length := List.length_pos_iff.2 hd
      rw [xorStream_step ks hd, List.length_append,
        ih (d.drop 16).length (by rw [List.length_drop]; omega) _ (fun i => hk (i + 1)) _ rfl]
      simp [hk]
      omega

end Sys2Proof.Machine
end

