-- ==== Sys2Proof/Machine/Assembly.lean ====
section
/-! DEFINITION. The assembler syntax of R95: an instruction and a command's result as text. The text is a notation for
inputs; no step reads it. -/

namespace Sys2Proof.Machine

/-- The hexadecimal digit of a number below 16. -/
def hexDigit (n : Nat) : Char := "0123456789abcdef".toList.getD n '0'

/-- The last `digits` hexadecimal digits of a number. -/
def hexText (digits n : Nat) : List Char := (List.range digits).reverse.map fun i => hexDigit (n / 16 ^ i % 16)

/-- A byte string, byte 0 first (R95). -/
def bytesText (b : Bytes) : String := "h'" ++ String.ofList (b.flatMap fun x => hexText 2 x.toNat) ++ "'"

/-- An integer of w bits, `0x`-prefixed with all its digits (R95 also allows decimal). -/
def intText {w : Nat} (v : BitVec w) : String := "0x" ++ String.ofList (hexText ((w + 3) / 4) v.toNat)

/-- The OK bit. -/
def okText (ok : Bool) : String := if ok then "1" else "0"

/-- The bytes a text string stands for, its ASCII codes (R95). -/
def textBytes (t : String) : Bytes := t.toList.map fun c => BitVec.ofNat 8 c.toNat

/-- A mnemonic with its operands (R95). -/
def lineText (mnemonic : String) (operands : List String) : String := mnemonic ++ " " ++ ", ".intercalate operands

/-- An instruction in the syntax of R95: the operands in the order of R72, with `IMM8`, where used, first. As in R95's
example, `EV.RDRESP` is written without its length, RSSI and SNR. -/
def instrText : Instr → String
  | .aesKeyexp k => lineText "AES.KEYEXP" [bytesText k]
  | .aesEncrk sched p => lineText "AES.ENCRK" [bytesText sched, bytesText p]
  | .aesEnc k p => lineText "AES.ENC" [bytesText k, bytesText p]
  | .ctrSimple k pid sid d => lineText "CTR.SIMPLE" [bytesText k, intText pid, intText sid, bytesText d]
  | .ctrLwan dir k addr fc d =>
    lineText "CTR.LWAN" [intText dir, bytesText k, intText addr, intText fc, bytesText d]
  | .cmacSubkeys k => lineText "CMAC.SUBKEYS" [bytesText k]
  | .cmacTag k m => lineText "CMAC.TAG" [bytesText k, bytesText m]
  | .pbEnc port p => lineText "PB.ENC" [intText port, bytesText p]
  | .lwBuild kn ka addr fc p =>
    lineText "LW.BUILD" [bytesText kn, bytesText ka, intText addr, intText fc, bytesText p]
  | .msBuild km sid pid p => lineText "MS.BUILD" [bytesText km, intText sid, intText pid, bytesText p]
  | .regRead regno => lineText "REG.READ" [intText regno]
  | .evReset initPktid initFcnt initChidx =>
    lineText "EV.RESET" [intText initPktid, intText initFcnt, intText initChidx]
  | .evRxsig => "EV.RXSIG"
  | .evRdresp ok data _ _ _ => lineText "EV.RDRESP" [okText ok, bytesText data]
  | .evTxresp ok => lineText "EV.TXRESP" [okText ok]
  | .ctlDispatch => "CTL.DISPATCH"

/-- A command's result (R95). -/
def resultText (r : Bytes) : String := "-> " ++ bytesText r

end Sys2Proof.Machine
end

