-- ==== Sys2Proof/Tests/Slice0.lean ====
section
/-! SUPPORT. The model's own tests. Expected values come from 95_test_vectors.md (V<n>, P<n>) or are written out by hand
from the rule named; the `meets` theorems show states and operands that meet the hypotheses of the obligation they name. -/

namespace Sys2Proof.Tests

open Sys2Proof Sys2Proof.Machine

/-- The key KN of 95_test_vectors.md. -/
def kn : Bytes := [0x2b, 0x7e, 0x15, 0x16, 0x28, 0xae, 0xd2, 0xa6, 0xab, 0xf7, 0x15, 0x88, 0x09, 0xcf, 0x4f, 0x3c]

/-- The key KA of 95_test_vectors.md. -/
def ka : Bytes := [0x00, 0x01, 0x02, 0x03, 0x04, 0x05, 0x06, 0x07, 0x08, 0x09, 0x0a, 0x0b, 0x0c, 0x0d, 0x0e, 0x0f]

/-- The key KM of 95_test_vectors.md. -/
def km : Bytes := [0xd4, 0xf1, 0xbb, 0x3a, 0x20, 0x29, 0x07, 0x59, 0xf0, 0xbc, 0xff, 0xab, 0xcf, 0x4e, 0x69, 0x01]

/-- The bytes "Hi". -/
def hi : Bytes := [0x48, 0x69]

/-- The state after reset with the keys and identities of 95_test_vectors.md (P5). -/
def base : State :=
  { State.reset with
    keyNwk := #v[0x2b, 0x7e, 0x15, 0x16, 0x28, 0xae, 0xd2, 0xa6, 0xab, 0xf7, 0x15, 0x88, 0x09, 0xcf, 0x4f, 0x3c],
    keyApp := #v[0x00, 0x01, 0x02, 0x03, 0x04, 0x05, 0x06, 0x07, 0x08, 0x09, 0x0a, 0x0b, 0x0c, 0x0d, 0x0e, 0x0f],
    keyMesh := #v[0xd4, 0xf1, 0xbb, 0x3a, 0x20, 0x29, 0x07, 0x59, 0xf0, 0xbc, 0xff, 0xab, 0xcf, 0x4e, 0x69, 0x01],
    devAddr := 0x26011bda, nodeId := 0x27c82356 }

/-- `base` in a phase. -/
def inPhase (p : Phase) : State := { base with phase := p }

/-- `base` with a fault recorded. -/
def faulted : State := { base with fault := 0x05#8 }

/-- `base` with one turn to come. -/
def withTurn (u : Turn) : State := { base with agenda := [u] }

/-- Some projection of the next state, if there is one. -/
def after {A : Type} (o : Outcome) (f : State → A) : Option A :=
  match o with
  | .next t => some (f t)
  | .fault _ => none
  | .refused _ => none

/-- The frames of the `TX` actions of a trace. -/
def frames : List Action → List Bytes
  | [] => []
  | .tx f :: rest => f :: frames rest
  | .cfg _ :: rest => frames rest
  | .startRx :: rest => frames rest
  | .read :: rest => frames rest

/-- What a command leaves: the result and the fault code. -/
def answer (t : State) : Option Bytes × Byte := (t.result, t.fault)

/-- An operand record with a different value in every slot. -/
def opr : Operands :=
  { bytes1 := [0x01], bytes2 := [0x02, 0x02], bytes3 := [0x03], word1 := 0x11223344, word2 := 0x55667788,
    half := 0x99aa, index := 0x05, length := 6, rssi := 7, snr := 8 }

/-! ### Well-formedness (R72): a term that passes, and one refused for each check -/

theorem test_well_formed_enc : WellFormed (.aesEnc ka kn) := by decide

theorem test_well_formed_reset : WellFormed (.evReset 0xffffffff 0xffff 7) := by decide

theorem test_ill_formed_keyexp : ¬ WellFormed (.aesKeyexp (zeros 17)) := by decide

theorem test_ill_formed_encrk_schedule : ¬ WellFormed (.aesEncrk (zeros 175) (zeros 16)) := by decide +kernel

theorem test_ill_formed_encrk_block : ¬ WellFormed (.aesEncrk (zeros 176) (zeros 15)) := by decide +kernel

theorem test_ill_formed_enc_key : ¬ WellFormed (.aesEnc (zeros 15) (zeros 16)) := by decide

theorem test_ill_formed_enc_block : ¬ WellFormed (.aesEnc (zeros 16) (zeros 17)) := by decide

theorem test_ill_formed_ctr_simple : ¬ WellFormed (.ctrSimple [] 0 0 hi) := by decide

theorem test_ill_formed_ctr_lwan : ¬ WellFormed (.ctrLwan 0 (zeros 15) 0 0 hi) := by decide

theorem test_ill_formed_subkeys : ¬ WellFormed (.cmacSubkeys (zeros 32)) := by decide

theorem test_ill_formed_tag : ¬ WellFormed (.cmacTag (zeros 15) hi) := by decide

theorem test_ill_formed_build_network_key : ¬ WellFormed (.lwBuild (zeros 15) ka 0 0 hi) := by decide

theorem test_ill_formed_build_application_key : ¬ WellFormed (.lwBuild kn (zeros 17) 0 0 hi) := by decide

theorem test_ill_formed_mesh_key : ¬ WellFormed (.msBuild (zeros 8) 0 0 hi) := by decide

theorem test_ill_formed_register : ¬ WellFormed (.regRead 0x09) := by decide

theorem test_ill_formed_channel : ¬ WellFormed (.evReset 1 0 8) := by decide

theorem test_ill_formed_length : ¬ WellFormed (.evRdresp true hi 3 0 0) := by decide

/-! ### Decoding: the words of R70 to R73 written out, `CODE` in bits 7:0 and `IMM8` in bits 15:8, and V60 -/

theorem test_decode_aes_keyexp : decode .command 0x00000001 opr = .ok (.aesKeyexp [0x01]) := by rfl

theorem test_decode_aes_encrk : decode .command 0x00000002 opr = .ok (.aesEncrk [0x01] [0x02, 0x02]) := by rfl

theorem test_decode_aes_enc : decode .command 0x00000003 opr = .ok (.aesEnc [0x01] [0x02, 0x02]) := by rfl

theorem test_decode_ctr_simple :
    decode .command 0x00000010 opr = .ok (.ctrSimple [0x01] 0x11223344 0x55667788 [0x02, 0x02]) := by rfl

theorem test_decode_ctr_lwan :
    decode .command 0x0000ff11 opr = .ok (.ctrLwan 0xff [0x01] 0x11223344 0x99aa [0x02, 0x02]) := by rfl

theorem test_decode_cmac_subkeys : decode .command 0x00000020 opr = .ok (.cmacSubkeys [0x01]) := by rfl

theorem test_decode_cmac_tag : decode .command 0x00000021 opr = .ok (.cmacTag [0x01] [0x02, 0x02]) := by rfl

theorem test_decode_pb_enc : decode .command 0x00000030 opr = .ok (.pbEnc 0x11223344 [0x01]) := by rfl

theorem test_decode_lw_build :
    decode .command 0x00000031 opr = .ok (.lwBuild [0x01] [0x02, 0x02] 0x11223344 0x99aa [0x03]) := by rfl

theorem test_decode_ms_build :
    decode .command 0x00000032 opr = .ok (.msBuild [0x01] 0x11223344 0x55667788 [0x02, 0x02]) := by rfl

theorem test_decode_reg_read : decode .command 0x00000840 opr = .ok (.regRead 0x08) := by rfl

theorem test_decode_ev_reset : decode .event 0x00000080 opr = .ok (.evReset 0x11223344 0x99aa 0x05) := by rfl

theorem test_decode_ev_rxsig : decode .event 0x00000081 opr = .ok (.evRxsig) := by rfl

theorem test_decode_ev_rdresp : decode .event 0x00000182 opr = .ok (.evRdresp true [0x01] 6 7 8) := by rfl

theorem test_decode_ev_txresp : decode .event 0x00000183 opr = .ok (.evTxresp true) := by rfl

theorem test_decode_ctl_dispatch : decodeTurn .own = .ok .ctlDispatch := by rfl

theorem test_refuse_reserved_first : decode .command 0x00010004 opr = .error .reservedNotZero := by rfl

theorem test_refuse_unassigned : decode .command 0x00000004 opr = .error .codeUnassigned := by rfl

theorem test_refuse_imm : decode .command 0x00000101 opr = .error .immNotAllowed := by rfl

theorem test_refuse_ok_bits : decode .event 0x00000282 opr = .error .immNotAllowed := by rfl

theorem test_refuse_event_on_command : decode .command 0x00000080 opr = .error .wrongPort := by rfl

theorem test_refuse_command_on_event : decode .event 0x00000001 opr = .error .wrongPort := by rfl

theorem test_refuse_internal : decode .event 0x000000c0 opr = .error .internalCode := by rfl

/-! ### Commands -/

/-- V3, round key 10. -/
theorem test_keyexp :
    after (exec (.aesKeyexp ka) base) (fun t => t.result.map fun r => slice r 160 16) =
      some (some [0x13, 0x11, 0x1d, 0x7f, 0xe3, 0x94, 0x4a, 0x17, 0xf3, 0x07, 0xa7, 0x8b, 0x4d, 0x2b, 0x30, 0xc5]) := by
  decide +kernel

/-- V7. -/
theorem test_keyexp_length :
    after (exec (.aesKeyexp (zeros 17)) base) answer = some (none, 0x02) := by decide

/-- V6: a schedule that no key expands to. -/
theorem test_encrk :
    after (exec (.aesEncrk (zeros 176) (zeros 16)) base) answer =
      some (some [0x36, 0x36, 0x36, 0x36, 0x36, 0x36, 0x36, 0x36, 0x36, 0x36, 0x36, 0x36, 0x36, 0x36, 0x36,
      0x36], 0x00) := by decide +kernel

/-- V7. -/
theorem test_encrk_length :
    after (exec (.aesEncrk (zeros 175) (zeros 16)) base) answer = some (none, 0x02) := by decide +kernel

/-- V6's S-box values, and by hand from R113 that 0x8d is the inverse of 0x02: twice 0x8d is 0x11a, reduced 0x01. -/
theorem test_sbox :
    sbox 0x00 = 0x63 ∧ sbox 0x01 = 0x7c ∧ sbox 0x53 = 0xed ∧ sbox 0xff = 0x16 ∧ gfMul 0x02 0x8d = 0x01 := by
  decide +kernel

/-- V1 (FIPS-197). -/
theorem test_enc :
    after (exec (.aesEnc ka [0x00, 0x11, 0x22, 0x33, 0x44, 0x55, 0x66, 0x77, 0x88, 0x99, 0xaa, 0xbb, 0xcc,
      0xdd, 0xee, 0xff]) base)
      answer =
      some (some [0x69, 0xc4, 0xe0, 0xd8, 0x6a, 0x7b, 0x04, 0x30, 0xd8, 0xcd, 0xb7, 0x80, 0x70, 0xb4, 0xc5,
      0x5a], 0x00) := by decide +kernel

/-- V7. -/
theorem test_enc_length :
    after (exec (.aesEnc (zeros 15) (zeros 16)) base) answer = some (none, 0x02) := by decide

/-- V20. -/
theorem test_ctr_simple :
    after (exec (.ctrSimple km 1 0x27c82356 hi) base) answer = some (some [0x51, 0xf2], 0x00) := by decide +kernel

/-- V24: the carry into byte 14, and the wrap. -/
theorem test_inc128 :
    inc128 [0x01, 0x00, 0x00, 0x00, 0x00, 0x00, 0x00, 0x00, 0x56, 0x23, 0xc8, 0x27, 0x00, 0x00, 0x00, 0xff] =
        [0x01, 0x00, 0x00, 0x00, 0x00, 0x00, 0x00, 0x00, 0x56, 0x23, 0xc8, 0x27, 0x00, 0x00, 0x01, 0x00] ∧
      inc128 (List.replicate 16 0xff) = zeros 16 := by decide +kernel

/-- V22, with DIR = 1. -/
theorem test_ctr_lwan :
    after (exec (.ctrLwan 0x01 ka 0 0 hi) base) answer = some (some [0x2d, 0x84], 0x00) := by decide +kernel

/-- V26: 4081 bytes need 256 blocks. -/
theorem test_ctr_lwan_range :
    after (exec (.ctrLwan 0x00 ka 0 0 (zeros 4081)) base) answer = some (none, 0x04) := by decide +kernel

/-- V10 (RFC 4493). -/
theorem test_cmac_subkeys :
    after (exec (.cmacSubkeys kn) base) answer =
      some (some ([0xfb, 0xee, 0xd6, 0x18, 0x35, 0x71, 0x33, 0x66, 0x7c, 0x85, 0xe0, 0x8f, 0x72, 0x36, 0xa8, 0xde] ++
        [0xf7, 0xdd, 0xac, 0x30, 0x6a, 0xe2, 0x66, 0xcc, 0xf9, 0x0b, 0xc1, 0x1e, 0xe4, 0x6d, 0x51, 0x3b]), 0x00) := by
  decide +kernel

/-- V11 (RFC 4493): the empty message is one padded block. -/
theorem test_cmac_tag_empty :
    after (exec (.cmacTag kn []) base) answer =
      some (some [0xbb, 0x1d, 0x69, 0x29, 0xe9, 0x59, 0x37, 0x28, 0x7f, 0xa3, 0x7d, 0x12, 0x9b, 0x75, 0x67,
      0x46], 0x00) := by decide +kernel

/-- V17: one whole block, then one byte padded. -/
theorem test_cmac_tag_padded :
    after (exec (.cmacTag kn ([0x6b, 0xc1, 0xbe, 0xe2, 0x2e, 0x40, 0x9f, 0x96, 0xe9, 0x3d, 0x7e, 0x11, 0x73,
      0x93, 0x17, 0x2a] ++ [0xae])) base) answer =
      some (some [0xbc, 0x72, 0xcc, 0x16, 0x8e, 0xc5, 0xa1, 0x43, 0x4d, 0xcd, 0xb2, 0x0b, 0xc1, 0xa2, 0xc2,
      0xa4], 0x00) := by decide +kernel

/-- V30. -/
theorem test_varint :
    varint 127 = [0x7f] ∧ varint 128 = [0x80, 0x01] ∧ varint 16384 = [0x80, 0x80, 0x01] ∧
      varint 4294967295 = [0xff, 0xff, 0xff, 0xff, 0x0f] := by decide

/-- V32. -/
theorem test_pb_enc :
    after (exec (.pbEnc 300 [0xaa]) base) answer = some (some [0x08, 0xac, 0x02, 0x12, 0x01, 0xaa], 0x00) := by
  decide +kernel

/-- V42. -/
theorem test_lw_build :
    lwBuild kn ka 0x26011bda 0xffff [] = [0x40, 0xda, 0x1b, 0x01, 0x26, 0x00, 0xff, 0xff, 0x01, 0xfa, 0x5f,
      0x3b, 0x2b] := by decide +kernel

/-- V50, with the vector input 0x03 for `MESH_FLAGS`. -/
theorem test_ms_build :
    msBuild 0x03 km 0x27c82356 1 hi =
      [0xff, 0xff, 0xff, 0xff, 0x56, 0x23, 0xc8, 0x27, 0x01, 0x00, 0x00, 0x00, 0x03, 0x08] ++
        [0x00, 0x00, 0x11, 0x9a, 0xb9, 0x5a, 0x0a, 0x65] := by decide +kernel

/-- V43: the key comes before the payload, whatever the payload. -/
theorem test_lw_build_key_first :
    after (exec (.lwBuild (zeros 15) ka 0 0 (zeros 300)) base) answer = some (none, 0x02) := by decide +kernel

/-- R189: a key of the wrong length. -/
theorem test_ms_build_key :
    after (exec (.msBuild (zeros 17) 0 0 hi) base) answer = some (none, 0x02) := by decide

/-- V43 and V52: 247 bytes are over every admitted `MAX_PAYLOAD` (R11). -/
theorem test_oversize :
    after (exec (.lwBuild kn ka 0 0 (zeros 247)) base) answer = some (none, 0x03) ∧
      after (exec (.msBuild km 0 0 (zeros 247)) base) answer = some (none, 0x03) := by
  have h : payloadOk (zeros 247) = false := by
    have := Config.maxPayloadBounded.isLt
    simp only [payloadOk, zeros, List.length_replicate, Config.maxPayload, gt_iff_lt]
    simp only [decide_eq_true this, Bool.not_true]
  simp [exec, execLwBuild, execMsBuild, command, whenRunning, h, firstFailure, keyOk, kn, ka, km, base, State.reset, raise,
    after, answer, State.setResult, State.setFault, FaultCode.code]

/-! ### Events, the internal step and the registers -/

/-- P5 step 1. -/
theorem test_reset :
    after (exec (.evReset 0xffffffff 0xffff 7) faulted) (fun t => (t.pktId, t.fcnt, t.chIdx, t.fault)) =
      some (0xffffffff, 0xffff, 7, 0x00) := by decide

/-- R280: INIT_CHIDX above 7. -/
theorem test_reset_channel :
    after (exec (.evReset 1 0 8) base) answer = some (none, 0x02) := by decide

/-- P4 step 9: latched during a cycle. -/
theorem test_rxsig :
    after (exec .evRxsig (inPhase .listenRead)) (fun t => (t.rxPend, t.phase)) = some (true, .listenRead) := by decide

/-- P7 step 3: no step in a faulted core. -/
theorem test_rxsig_faulted :
    after (exec .evRxsig faulted) (fun t => (t.rxPend, t.fault)) = some (false, 0x05) := by decide

/-- P3 step 3. -/
theorem test_dispatch :
    after (exec .ctlDispatch { base with rxPend := true }) (fun t => (t.rxPend, t.phase, t.trace.getLast?)) =
      some (false, .listenRead, some .read) := by decide

/-- R211: not enabled in `LWAN_TX`. -/
theorem test_dispatch_waits :
    after (exec .ctlDispatch { inPhase .lwanTx with rxPend := true }) (fun t => (t.rxPend, t.phase)) =
      some (true, .lwanTx) := by decide

/-- P5 step 4: both counters wrap, and the frame is V42. -/
theorem test_rdresp :
    after (exec (.evRdresp true [] 0 0 0) { inPhase .listenRead with fcnt := 0xffff, chIdx := 7 })
      (fun t => (t.fcnt, t.chIdx, t.phase, frames t.trace)) =
      some (0x0000, 0, .lwanTx, [[0x40, 0xda, 0x1b, 0x01, 0x26, 0x00, 0xff, 0xff, 0x01, 0xfa, 0x5f, 0x3b, 0x2b]]) := by
  decide +kernel

/-- P4 step 5: a failed read changes no counter. -/
theorem test_rdresp_failed :
    after (exec (.evRdresp false hi 9 0 0) (inPhase .listenRead))
      (fun t => (t.status, t.phase, t.fcnt, t.chIdx, t.fault)) = some (0x01, .listenIdle, 0, 0, 0x00) := by decide

/-- P5 step 5: `PKTID` wraps in the Meshtastic hand-off. -/
theorem test_txresp_lorawan :
    after (exec (.evTxresp true) { inPhase .lwanTx with pktId := 0xffffffff, status := 0x07 })
      (fun t => (t.status, t.pktId, t.phase)) = some (0x05, 0x00000000, .meshTx) := by decide

/-- P3 step 6, with RXBUF "Hi". -/
theorem test_txresp_mesh :
    after (exec (.evTxresp false) { inPhase .meshTx with rxBuf := hi })
      (fun t => (t.status, t.rxBuf, t.phase, t.trace.getLast?)) =
      some (0x04, [], .listenIdle, some .startRx) := by decide

/-- P7 step 2: `PROTOCOL`, and nothing else changes. -/
theorem test_txresp_protocol :
    after (exec (.evTxresp true) base) (fun t => (t.fault, t.phase, t.status)) = some (0x05, .listenIdle, 0x00) := by
  decide

/-- V61. -/
theorem test_reg_read :
    after (exec (.regRead 0x07) base) answer = some (some [0xda, 0x1b, 0x01, 0x26], 0x00) ∧
      after (exec (.regRead 0x02) base) answer = some (some [0x01, 0x00, 0x00, 0x00], 0x00) := by decide

/-- V61, and P7 steps 5 and 6. -/
theorem test_reg_read_faulted :
    after (exec (.regRead 0x09) base) answer = some (none, 0x02) ∧
      after (exec (.regRead 0x06) faulted) answer = some (some [0x05, 0x00, 0x00, 0x00], 0x05) ∧
      after (exec (.regRead 0x09) faulted) answer = some (none, 0x05) := by decide

/-- R96, with the B0 of R84 written out for a message of one byte. -/
theorem test_pseudo :
    lwMic kn 0x26011bda 0xffff [0x40] =
      some (.cmacTag kn ([0x49, 0x00, 0x00, 0x00, 0x00, 0x00, 0xda, 0x1b, 0x01, 0x26, 0xff, 0xff, 0x00, 0x00,
      0x00, 0x01] ++ [0x40])) := by decide

/-- R95's examples, the integers with all their digits. -/
theorem test_text :
    instrText (.regRead 0x03) = "REG.READ 0x03" ∧
      instrText (.evRdresp true (textBytes "Hi") 2 0 0) = "EV.RDRESP 1, h'4869'" ∧ resultText [] = "-> h''" := by
  decide +kernel

/-- P4 step 2 by the agenda: the turn is taken off, and the result channel is cleared. -/
theorem test_step :
    after (step { withTurn (.input .event 0x00000081 opr) with result := some [] })
      (fun t => (t.rxPend, t.agenda, t.result)) =
      some (true, [], none) := by decide

/-- V60 and R252 by the agenda: an illegal word. -/
theorem test_step_illegal :
    after (step (withTurn (.input .event 0x00000003 opr))) answer = some (none, 0x01) := by decide

/-- A word of spec/opcode_table.json placed first is what the next step runs. -/
theorem test_fetch_word :
    after (step (State.reset.withFetchWord 32 0x81)) (fun t => (t.rxPend, t.fault)) = some (true, 0x00) := by decide

/-! ### The hypotheses of the obligations can be met -/

theorem test_meets_DecodedWordHasOneMeaning :
    decode .event 0x00000183 opr = .ok (.evTxresp true) := by rfl

theorem test_meets_IllegalWordRaisesIllegalCommand :
    illegalWord .command 0x00000004 = true ∧
      (withTurn (.input .command 0x00000004 opr)).agenda = .input .command 0x00000004 opr :: [] ∧
      (withTurn (.input .command 0x00000004 opr)).fault = 0#8 ∧
      ({ withTurn (.input .command 0x00000004 opr) with fault := 0x05#8 } : State).fault ≠ 0#8 := by decide

theorem test_meets_StepRunsTheDecodedTurn :
    (withTurn (.input .event 0x00000081 opr)).agenda = .input .event 0x00000081 opr :: [] ∧
      decodeTurn (.input .event 0x00000081 opr) = .ok .evRxsig ∧ base.agenda = [] := ⟨rfl, rfl, rfl⟩

theorem test_meets_AesKeyexpReturnsTheSchedule :
    base.fault = 0#8 ∧ kn.length = 16 ∧ (zeros 15).length ≠ 16 ∧ (zeros 17).length ≠ 16 := by decide

theorem test_meets_CtrSimpleReturnsTheStream :
    base.fault = 0#8 ∧ kn.length = 16 ∧ (zeros 15).length ≠ 16 ∧ (zeros 17).length ≠ 16 := by decide

theorem test_meets_CmacSubkeysReturnsBothSubkeys :
    base.fault = 0#8 ∧ kn.length = 16 ∧ (zeros 15).length ≠ 16 ∧ (zeros 17).length ≠ 16 := by decide

theorem test_meets_CmacTagReturnsTheTag :
    base.fault = 0#8 ∧ kn.length = 16 ∧ (zeros 15).length ≠ 16 ∧ (zeros 17).length ≠ 16 := by decide

theorem test_meets_AesEncrkReturnsTheCiphertext :
    base.fault = 0#8 ∧ (zeros 176).length = 176 ∧ kn.length = 16 ∧ (zeros 175).length ≠ 176 ∧
      (zeros 17).length ≠ 16 ∧ 0 < 16 ∧ 15 < 16 ∧ 1 ≤ 1 ∧ 1 ≤ 9 ∧ 9 ≤ 9 ∧ 0 < 4 ∧ 3 < 4 := by decide +kernel

/-- The bytes that enter MixColumns, which the rounds clause names, are there whatever the state before the round. -/
theorem test_meets_AesEncrkReturnsTheCiphertext_column (st : Nat → Bytes) :
    ∃ a : Nat → Byte, ∀ r, r < 4 → a r = sbox ((st (9 - 1)).getD (r + 4 * ((3 + r) % 4)) 0) := ⟨_, fun _ _ => rfl⟩

theorem test_meets_AesEncReturnsTheCiphertext :
    base.fault = 0#8 ∧ kn.length = 16 ∧ (zeros 15).length ≠ 16 ∧ (zeros 17).length ≠ 16 := by decide

theorem test_meets_KeyExpansionFollowsTheRecurrence :
    kn.length = 16 ∧ 4 ≤ 4 ∧ 4 < 44 ∧ 4 ≤ 43 ∧ 43 < 44 ∧ 4 % 4 = 0 ∧ 43 % 4 ≠ 0 ∧ 0 < 4 ∧ 3 < 4 := by decide

theorem test_meets_SboxIsAPermutation :
    1 ≤ 1 ∧ 1 ≤ 9 ∧ 9 ≤ 9 ∧ (0x00 : Byte) = 0x00 ∧ (0x01 : Byte) ≠ 0x00 := by decide

theorem test_meets_EncryptBlockIsInjective :
    (zeros 176).length = 176 ∧ (zeros 16).length = 16 ∧
      encryptBlock (zeros 176) (zeros 16) = encryptBlock (zeros 176) (zeros 16) :=
  ⟨by decide +kernel, by decide, rfl⟩

theorem test_meets_CtrLwanReturnsTheStream :
    base.fault = 0#8 ∧ ka.length = 16 ∧ (zeros 0).length ≤ 4080 ∧ (zeros 4080).length ≤ 4080 ∧
      4080 < (zeros 4081).length ∧
      (zeros 15).length ≠ 16 := by decide +kernel

theorem test_meets_StreamsXorBlockByBlock :
    km.length = 16 ∧ 1 ≤ 1 ∧ 1 ≤ blockCount hi.length ∧ 3 ≤ blockCount (zeros 33).length ∧
      blockCount (zeros 4080).length ≤ 255 := by decide +kernel

theorem test_meets_StreamsAreSymmetric :
    km.length = 16 ∧ blockCount (zeros 4080).length ≤ 255 := by decide +kernel

theorem test_meets_StreamsRespectBeginnings :
    km.length = 16 ∧ blockCount (zeros 4080).length ≤ 255 := by decide +kernel

theorem test_meets_NonceIncrementCarries :
    (zeros 14).length + 1 + 1 = 16 ∧ (0x00 : Byte) ≠ 0xff ∧ (zeros 0).length + 1 + 15 = 16 ∧
      (zeros 15).length + 1 + 0 = 16 ∧
      (0xfe : Byte) ≠ 0xff := by decide

theorem test_meets_DoublingShiftsAndReduces :
    kn.length = 16 ∧ 14 < 15 ∧ ((zeros 16).getD 0 0).getLsbD 7 = false ∧
      ((List.replicate 16 (0x80 : Byte)).getD 0 0).getLsbD 7 = true := by decide

theorem test_meets_CmacChainsItsBlocks :
    kn.length = 16 ∧ (zeros 0).length < 16 ∧ (zeros 15).length < 16 ∧ (zeros 16).length = 16 ∧
      16 < (zeros 17).length ∧
      (zeros 31).length < 32 ∧ (zeros 32).length = 32 ∧ 32 < (zeros 33).length := by decide

theorem test_meets_PbEncReturnsTheMicroEncoding :
    base.fault = 0#8 := by decide

theorem test_meets_VarintCarriesTheNumber :
    0 < 2 ^ 32 ∧ 2 ^ 32 - 1 < 2 ^ 32 ∧ 2 ^ 7 - 1 < 2 ^ 7 ∧ ¬ 2 ^ 7 < 2 ^ 7 ∧ ¬ 2 ^ 28 < 2 ^ 28 := by decide

theorem test_meets_LwBuildReturnsTheFrame :
    base.fault = 0#8 ∧ kn.length = 16 ∧ ka.length = 16 ∧ (zeros Config.maxPayload).length ≤ Config.maxPayload ∧
      Config.maxPayload < (zeros (Config.maxPayload + 1)).length ∧ (zeros 15).length ≠ 16 := by
  simp [zeros, kn, ka, base, State.reset]

theorem test_meets_MsBuildReturnsThePacket :
    base.fault = 0#8 ∧ km.length = 16 ∧ (zeros Config.maxPayload).length ≤ Config.maxPayload ∧
      Config.maxPayload < (zeros (Config.maxPayload + 1)).length ∧ (zeros 17).length ≠ 16 := by
  simp [zeros, km, base, State.reset]

theorem test_meets_LorawanFrameLayout :
    kn.length = 16 ∧ ka.length = 16 ∧ (zeros 0).length ≤ 246 ∧ (zeros 246).length ≤ 246 := by decide +kernel

theorem test_meets_MeshtasticPacketLayout :
    km.length = 16 ∧ (zeros 127).length ≤ 127 ∧ ¬ (zeros 128).length ≤ 127 ∧ (zeros 246).length ≤ 246 := by
  decide +kernel

theorem test_meets_FramesDecryptBack :
    kn.length = 16 ∧ ka.length = 16 ∧ km.length = 16 ∧ (zeros 246).length ≤ 246 := by decide +kernel

theorem test_meets_PseudoInstructionsExpand :
    base.fault = 0#8 ∧ kn.length = 16 ∧ hi.length ≤ 4080 ∧ (zeros 255).length ≤ 255 ∧ 255 < (zeros 256).length := by
  decide +kernel

theorem test_meets_RxsigLatchesTheNotification :
    (inPhase .meshTx).fault = 0#8 ∧ ({ base with rxPend := true } : State).fault = 0#8 ∧
      ({ base with rxPend := true } : State).rxPend = true := by decide

theorem test_meets_DispatchStartsTheRead :
    codeField 0x000000c0 = 0xC0#8 ∧ ({ base with rxPend := true } : State).fault = 0#8 ∧
      ({ base with rxPend := true } : State).phase = .listenIdle ∧
      ({ base with rxPend := true } : State).rxPend = true := by decide

theorem test_meets_FailedReadResumesListening :
    (inPhase .listenRead).fault = 0#8 ∧ (inPhase .listenRead).phase = .listenRead := by decide

theorem test_meets_AcceptedReadHandsOffTheLorawanFrame :
    (inPhase .listenRead).fault = 0#8 ∧ (inPhase .listenRead).phase = .listenRead ∧
      ([] : Bytes).length ≤ Config.maxPayload ∧ (zeros Config.maxPayload).length ≤ Config.maxPayload :=
  ⟨rfl, rfl, Nat.zero_le _, Nat.le_of_eq (List.length_replicate ..)⟩

theorem test_meets_RadioAnswerFaults :
    (inPhase .lwanTx).fault = 0#8 ∧ (inPhase .lwanTx).phase ≠ .listenRead ∧ (inPhase .listenRead).fault = 0#8 ∧
      (inPhase .listenRead).phase = .listenRead ∧ 3 ≠ hi.length ∧
      Config.maxPayload < (zeros (Config.maxPayload + 1)).length ∧ base.phase ≠ .lwanTx ∧ base.phase ≠ .meshTx := by
  simp [zeros, hi, inPhase, base, State.reset]

theorem test_meets_LorawanTransmitAnswerHandsOffTheMeshPacket :
    (inPhase .lwanTx).fault = 0#8 ∧ (inPhase .lwanTx).phase = .lwanTx := by decide

theorem test_meets_MeshTransmitAnswerResumesListening :
    (inPhase .meshTx).fault = 0#8 ∧ (inPhase .meshTx).phase = .meshTx := by decide

theorem test_meets_RegReadReturnsTheRegister :
    (inPhase .listenIdle).phase = .listenIdle ∧ (inPhase .listenRead).phase = .listenRead ∧
      (inPhase .lwanTx).phase = .lwanTx ∧ (inPhase .meshTx).phase = .meshTx := by decide

theorem test_meets_ResetSetsEveryRegister :
    (0x00 : Byte).toNat ≤ 7 ∧ (0x07 : Byte).toNat ≤ 7 := by decide

theorem test_meets_UnassignedOperandValuesFault :
    8 < (0x09 : Byte).toNat ∧ 8 < (0xff : Byte).toNat ∧ 7 < (0x08 : Byte).toNat ∧ base.fault = 0#8 ∧
      faulted.fault ≠ 0#8 := by decide

theorem test_meets_StepsWithNoTransitionLeaveTheCore :
    faulted.fault ≠ 0#8 ∧ isReset (.evTxresp true) = false ∧ isRegRead (.evTxresp true) = false ∧
      (inPhase .lwanTx).phase ≠ .listenIdle ∧ base.rxPend = false ∧ base.agenda = [] := by decide

theorem test_meets_DutifulInputsNeverFault :
    (inPhase .meshTx).fault = 0#8 ∧
      decodeTurn (nextTurn { inPhase .meshTx with agenda := [.input .event 0x00000083 opr] }) = .ok (.evTxresp false) ∧
      WellFormed (.evTxresp false) ∧ dutiful (inPhase .meshTx) (.evTxresp false) ∧
      dutiful (inPhase .listenRead) (.evRdresp true (zeros Config.maxPayload) Config.maxPayload 0 0) ∧
      dutiful base (.ctrLwan 0x00 ka 0 0 (zeros 4080)) :=
  ⟨rfl, rfl, rfl, .inr rfl, ⟨rfl, fun _ => Nat.le_of_eq (List.length_replicate ..)⟩,
    show blockCount (zeros 4080).length ≤ 255 by decide +kernel⟩

theorem test_meets_FaultsArePrecise :
    base.fault = 0#8 ∧ ∃ t, exec (.evTxresp true) base = .next t ∧ t.fault ≠ 0#8 := ⟨rfl, _, rfl, by decide⟩

theorem test_meets_FirstFaultIsKept :
    faulted.fault ≠ 0#8 ∧ (∃ t, step faulted = .next t) ∧
      ∃ t, step { faulted with agenda := [.input .event 0x00000080 opr] } = .next t ∧ t.fault = 0#8 :=
  ⟨by decide, ⟨_, rfl⟩, _, rfl, rfl⟩

theorem test_meets_CommandsWriteNoRegister :
    isCommand (.pbEnc 1 hi) = true ∧ (∃ t, exec (.pbEnc 1 hi) base = .next t) ∧
      ∃ t, exec (.pbEnc 1 hi) faulted = .next t ∧ faulted.fault ≠ 0#8 := ⟨rfl, ⟨_, rfl⟩, _, rfl, by decide⟩

theorem test_meets_CommandsAreFunctionsOfTheirOperands :
    isCommand (.pbEnc 1 hi) = true ∧ isRegRead (.pbEnc 1 hi) = false ∧ base.fault = 0#8 ∧
      (inPhase .meshTx).fault = 0#8 ∧
      (∃ t, exec (.pbEnc 1 hi) base = .next t) ∧ ∃ t, exec (.pbEnc 1 hi) (inPhase .meshTx) = .next t :=
  ⟨rfl, rfl, rfl, rfl, ⟨_, rfl⟩, _, rfl⟩

theorem test_meets_CommandsRevealNoKey :
    isCommand (.regRead 0x07) = true ∧ (∃ t, exec (.regRead 0x07) base = .next t) ∧
      ∃ t, exec (.regRead 0x07) { base with keyNwk := base.keyApp, rxBuf := hi } = .next t := ⟨rfl, ⟨_, rfl⟩, _, rfl⟩

theorem test_meets_ProvisioningIsWrittenByResetAlone :
    isReset .evRxsig = false ∧ (∃ t, exec .evRxsig base = .next t) ∧ isReset (.evReset 1 0 0) = true ∧
      ∃ t, exec (.evReset 1 0 0) base = .next t ∧ t.fault = 0#8 := ⟨rfl, ⟨_, rfl⟩, rfl, _, rfl, rfl⟩

theorem test_meets_PhasesFollowTheTransitionTable :
    (∃ t, exec (.evTxresp true) (inPhase .meshTx) = .next t ∧ t.phase ≠ (inPhase .meshTx).phase) ∧
      ∃ t, exec .evRxsig base = .next t ∧ t.phase = base.phase := ⟨⟨_, rfl, by decide⟩, _, rfl, rfl⟩

theorem test_meets_CountersAdvanceOnlyOnTheHandoff :
    isReset (.evTxresp true) = false ∧
      (∃ t, exec (.evTxresp true) (inPhase .lwanTx) = .next t ∧ t.pktId ≠ (inPhase .lwanTx).pktId) ∧
      ∃ t, exec (.evRdresp true [] 0 0 0) (inPhase .listenRead) = .next t ∧ t.fcnt ≠ base.fcnt :=
  ⟨rfl, ⟨_, rfl, by decide⟩, _, rfl, by decide⟩

theorem test_meets_NotificationIsConsumedByDispatchAlone :
    (∃ t, exec .evRxsig base = .next t ∧ base.rxPend = false ∧ t.rxPend = true) ∧
      ∃ t, exec .ctlDispatch { base with rxPend := true } = .next t ∧ t.rxPend = false :=
  ⟨⟨_, rfl, rfl, rfl⟩, _, rfl, rfl⟩

theorem test_meets_TraceGrowsByTheActionsOfATransition :
    isReset (.evTxresp true) = false ∧ ∃ t, exec (.evTxresp true) (inPhase .meshTx) = .next t ∧
      t.trace.length = base.trace.length + 2 := ⟨rfl, _, rfl, rfl⟩

theorem test_meets_StatusIsNeverActedOn :
    isRegRead (.evTxresp true) = false ∧ ∃ t, exec (.evTxresp true) (inPhase .meshTx) = .next t := ⟨rfl, _, rfl⟩

theorem test_meets_AcceptedCycleGainsSevenActions :
    base.AtCycleBoundary ∧ ([] : Bytes).length ≤ Config.maxPayload ∧
      (zeros Config.maxPayload).length ≤ Config.maxPayload :=
  ⟨by decide, Nat.zero_le _, Nat.le_of_eq (List.length_replicate ..)⟩

theorem test_meets_FailedReadCycleConsumesNoCounter :
    base.AtCycleBoundary := by decide

theorem test_meets_StepKeepsRegistersLegal :
    State.reset.RegistersLegal ∧ ∃ t, step (State.reset.withFetchWord 32 0x81) = .next t ∧
      (State.reset.withFetchWord 32 0x81).RegistersLegal :=
  ⟨⟨⟨rfl, rfl, rfl, rfl, rfl⟩, rfl, Nat.zero_le _, Nat.zero_le _, fun _ => rfl⟩, _, rfl,
    ⟨⟨rfl, rfl, rfl, rfl, rfl⟩, rfl, Nat.zero_le _, Nat.zero_le _, fun _ => rfl⟩⟩

theorem test_meets_StepKeepsTraceLegal :
    State.reset.TraceLegal ∧ ∃ t, step (State.reset.withFetchWord 32 0x81) = .next t ∧
      (State.reset.withFetchWord 32 0x81).TraceLegal :=
  ⟨⟨rfl, rfl, rfl⟩, _, rfl, ⟨rfl, rfl, rfl⟩⟩

end Sys2Proof.Tests
end

section
/-! PROOF. The counters advance on the two hand-offs (R26, R27, R222, R224). -/

namespace Sys2Proof.Machine

variable {i : Instr} {s t : State}

/-- `FCNT` and `CHIDX` are used and advanced by the accepted read alone (R26, R222). -/
theorem Effect.fcnt_chIdx_cases (he : Effect i s t) (hr : isReset i = false) :
    (t.fcnt = s.fcnt ∧ t.chIdx = s.chIdx ∧ ¬ (s.phase = .listenRead ∧ t.phase = .lwanTx)) ∨
    (t.fcnt = s.fcnt + 1 ∧ t.chIdx = s.chIdx + 1 ∧ s.phase = .listenRead ∧ t.phase = .lwanTx ∧
      (∃ d n r q, i = .evRdresp true d n r q) ∧
      ∃ f, t.trace = s.trace ++ [.cfg (Config.cfgLwanTx s.chIdx.toFin), .tx f]) := by
  cases he with
  | none | faulted | returned | signalled => exact .inl ⟨rfl, rfl, fun ⟨hs, ht⟩ => nomatch hs.symm.trans ht⟩
  | dispatched | readFailed | lwanSent | meshSent => exact .inl (by simp [resumeListening_eq, meshHandoff_eq])
  | readAccepted d r q hi _ hp _ =>
    exact .inr ⟨rfl, rfl, hp, rfl, ⟨d, _, r, q, hi⟩, _, List.append_assoc _ _ _⟩
  | reset p f c hi _ =>
    subst hi
    cases hr

/-- `PKTID` is used and advanced by the first transmit result alone (R24, R224). -/
theorem Effect.pktId_cases (he : Effect i s t) (hr : isReset i = false) :
    (t.pktId = s.pktId ∧ ¬ (s.phase = .lwanTx ∧ t.phase = .meshTx)) ∨
    (t.pktId = s.pktId + 1 ∧ s.phase = .lwanTx ∧ t.phase = .meshTx ∧ ∃ ok, i = .evTxresp ok) := by
  cases he with
  | none | faulted | returned | signalled => exact .inl ⟨rfl, fun ⟨hs, ht⟩ => nomatch hs.symm.trans ht⟩
  | dispatched | readFailed | readAccepted | meshSent => exact .inl (by simp [resumeListening_eq, lwanHandoff_eq])
  | lwanSent ok hi _ hp => exact .inr ⟨rfl, hp, rfl, ok, hi⟩
  | reset p f c hi _ =>
    subst hi
    cases hr

/-- Settles O52: of all the effects an instruction has outside reset, the accepted read alone advances `FCNT` and `CHIDX`, and
the first transmit result alone advances `PKTID`. -/
theorem countersAdvanceOnlyOnTheHandoff : Obligations.CountersAdvanceOnlyOnTheHandoff :=
  fun _ _ _ hr h => ⟨(exec_cases h).fcnt_chIdx_cases hr, (exec_cases h).pktId_cases hr⟩

end Sys2Proof.Machine
end

section
/-! PROOF. `AES.ENC` returns `AES(K, P)`, and faults on a wrong length (R122, R125). -/

namespace Sys2Proof.Machine

/-- Two checks with one fault code report it when either fails, whichever comes first (R255). -/
theorem firstFailure_pair_of_fail (c : FaultCode) {a b : Bool} (h : a = false ∨ b = false) :
    firstFailure [(a, c), (b, c)] = some c := by
  cases a with
  | false => exact firstFailure_fail c _
  | true => rw [h.resolve_left nofun, firstFailure_pass, firstFailure_fail]

/-- `AES.ENC` of a 16-byte key and a 16-byte block (R125). -/
theorem exec_aesEnc_completes {k p : Bytes} {s : State} (hf : s.fault = 0#8) (hk : k.length = 16) (hp : p.length = 16) :
    exec (.aesEnc k p) s = .next { s with result := some (aes k p) } := by
  rw [exec_aesEnc]
  refine command_completes hf ?_ _
  rw [(keyOk_iff k).2 hk, (blockOk_iff p).2 hp, firstFailure_pass, firstFailure_pass, firstFailure_nil]

/-- `AES.ENC` of a key or a block of another length (R125). -/
theorem exec_aesEnc_faults {k p : Bytes} {s : State} (hf : s.fault = 0#8) (h : k.length ≠ 16 ∨ p.length ≠ 16) :
    exec (.aesEnc k p) s = .next { s with fault := 0x02#8, result := none } := by
  rw [exec_aesEnc]
  exact command_faults hf
    (firstFailure_pair_of_fail _ (h.imp (keyOk_eq_false_iff k).2 (blockOk_eq_false_iff p).2)) _

/-- Settles O9: word 0x03 selects `AES.ENC`, whose two length checks both hold or fault with `BAD_OPERAND`. -/
theorem aesEncReturnsTheCiphertext : Obligations.AesEncReturnsTheCiphertext :=
  ⟨fun _ => rfl, fun _ _ => rfl, fun _ _ _ hf => ⟨exec_aesEnc_completes hf, exec_aesEnc_faults hf⟩⟩

end Sys2Proof.Machine
end

section
/-! PROOF. Both stream schemes XOR block by block with their own keystream blocks (R140, R141, R143). -/

namespace Sys2Proof.Machine

/-- The first 16 bytes of a stream use the first keystream block alone (R140). -/
theorem take_xorStream {ks : Nat → Bytes} (hk : ∀ i, (ks i).length = 16) (d : Bytes) :
    (xorStream ks d).take 16 = xorBytes (d.take 16) (ks 1) := by
  by_cases hd : d = []
  · subst hd
    rfl
  · rw [xorStream_step ks hd]
    rcases Nat.lt_or_ge d.length 16 with hshort | hfull
    · rw [List.drop_eq_nil_of_le hshort.le, xorStream_nil, List.append_nil, List.take_of_length_le (by simp [hk])]
    · exact List.take_left' (by simp [hk, hfull])

/-- After 16 bytes a stream goes on as the stream of the rest with the next keystream blocks (R140). -/
theorem drop_xorStream {ks : Nat → Bytes} (hk : ∀ i, (ks i).length = 16) (d : Bytes) :
    (xorStream ks d).drop 16 = xorStream (fun i => ks (i + 1)) (d.drop 16) := by
  by_cases hd : d = []
  · subst hd
    rfl
  · refine List.append_cancel_left (as := xorBytes (d.take 16) (ks 1)) ?_
    rw [← xorStream_step ks hd, ← take_xorStream hk, List.take_append_drop]

/-- Segment i of a stream is the data's segment i XORed with keystream block i (R140); past the data both are empty. -/
theorem segment_xorStream {ks : Nat → Bytes} (hk : ∀ i, (ks i).length = 16) (d : Bytes) {i : Nat} (hi : 1 ≤ i) :
    segment (xorStream ks d) i = xorBytes (segment d i) (ks i) := by
  induction i, hi using Nat.le_induction generalizing ks d with
  | base => exact take_xorStream hk d
  | succ i hi ih =>
    obtain ⟨j, rfl⟩ := Nat.exists_eq_add_of_le' hi
    rw [segment_succ_succ, segment_succ_succ, drop_xorStream hk]
    exact ih (fun n => hk (n + 1)) _

/-- Each block's nonce is the increment of the one before (R141). -/
theorem simpleNonceAt_succ (pid sid : Word) {i : Nat} (hi : 1 ≤ i) :
    simpleNonceAt pid sid (i + 1) = inc128 (simpleNonceAt pid sid i) := by
  obtain ⟨j, rfl⟩ := Nat.exists_eq_add_of_le' hi
  exact Function.iterate_succ_apply' inc128 j _

theorem extractLsb'_of_width_le {w : Nat} (v : BitVec w) {a : Nat} (n : Nat) (h : w ≤ a) :
    v.extractLsb' a n = 0#n := by
  ext i hi
  simp [BitVec.getLsbD_of_ge v (a + i) (by omega)]

/-- A 16-bit counter in a 32-bit field: its two bytes, then two zero bytes (R83). -/
theorem le32_zeroExtend (v : Half) : le32 (v.zeroExtend 32) = le16 v ++ [0, 0] := by
  simp [le32, le16, BitVec.extractLsb'_setWidth_of_le, extractLsb'_of_width_le v]

/-- The LoRaWAN counter block byte by byte (R83): the counter's two upper bytes are zero. -/
theorem aBlock_eq (dir : Byte) (addr : Word) (fc : Half) (i : Nat) :
    aBlock dir addr fc i = [0x01, 0, 0, 0, 0, dir] ++ le32 addr ++ le16 fc ++ [0, 0, 0, BitVec.ofNat 8 i] := by
  rw [aBlock, le32_zeroExtend]
  rfl

/-- Settles O15: both schemes are the stream XOR with whole keystream blocks, so the length and the segments are those of
`xorStream`; what is left is the nonce's recurrence and the counter block's bytes. -/
theorem streamsXorBlockByBlock : Obligations.StreamsXorBlockByBlock := by
  intro k d hk
  have hblock : ∀ p, (aes k p).length = 16 := length_aes hk
  refine ⟨fun pid sid => ⟨length_xorStream _ (fun _ => hblock _) d, rfl, fun i hi => simpleNonceAt_succ pid sid hi,
    fun i hi _ => segment_xorStream (fun _ => hblock _) d hi⟩,
    fun dir addr fc _ => ⟨length_xorStream _ (fun _ => hblock _) d, fun i hi _ => ?_⟩⟩
  rw [← aBlock_eq]
  exact segment_xorStream (fun _ => hblock _) d hi

end Sys2Proof.Machine
end

section
/-! PROOF. `CTR.SIMPLE` returns `CtrSimple` of its operands, and faults on a key of a wrong length (R144). -/

namespace Sys2Proof.Machine

/-- Settles O13: word 0x10 selects `CTR.SIMPLE`, whose one check is the length of its key. -/
theorem ctrSimpleReturnsTheStream : Obligations.CtrSimpleReturnsTheStream := by
  refine ⟨fun _ => rfl, fun k pid sid d s hf => ⟨fun hk => ?_, fun hk => ?_⟩⟩
  · rw [exec_ctrSimple, (keyOk_iff k).2 hk]
    exact command_completes hf (firstFailure_pass .badOperand []) _
  · rw [exec_ctrSimple, (keyOk_eq_false_iff k).2 hk]
    exact command_faults hf (firstFailure_fail .badOperand []) _

end Sys2Proof.Machine
end

section
/-! PROOF. `Dbl` byte by byte, through the big-endian reading of 16 bytes (R12, R160). -/

namespace Sys2Proof.Machine

/-- A bit of the big-endian reading lies in the byte it is counted into from the last one (R12). -/
theorem testBit_bigEndian (b : Bytes) {i j : Nat} (hi : i < b.length) (hj : j < 8) :
    (b.foldl (fun n (x : Byte) => 256 * n + x.toNat) 0).testBit (8 * (b.length - 1 - i) + j) =
      (b.getD i 0).getLsbD j := by
  induction b using List.reverseRecOn with
  | nil => cases hi
  | append_singleton front x ih =>
    rw [List.length_append, List.length_singleton] at hi ⊢
    rw [List.foldl_append, List.foldl_cons, List.foldl_nil, Nat.testBit_two_pow_mul_add (i := 8) _ x.isLt]
    rcases Nat.lt_or_eq_of_le (Nat.le_of_lt_succ hi) with hfront | rfl
    · rw [if_neg (by omega), List.getD_append _ _ _ _ hfront, ← ih hfront]
      congr 1
      omega
    · rw [if_pos (by omega), List.getD_append_right _ _ _ _ le_rfl, Nat.add_sub_cancel, Nat.sub_self, Nat.zero_add]
      rfl

/-- A bit of `be128` by its byte, byte 15 the least significant (R12). -/
theorem getLsbD_be128 {b : Bytes} (hb : b.length = 16) {i j : Nat} (hi : i < 16) (hj : j < 8) :
    (be128 b).getLsbD (8 * (15 - i) + j) = (b.getD i 0).getLsbD j := by
  rw [be128, BitVec.getLsbD_ofNat, decide_eq_true (by omega), Bool.true_and, ← testBit_bigEndian b (hb ▸ hi) hj, hb]

/-- Byte i of `be128`, as a field of 8 bits (R12). -/
theorem extractLsb'_be128 {b : Bytes} (hb : b.length = 16) {i : Nat} (hi : i < 16) :
    (be128 b).extractLsb' (8 * (15 - i)) 8 = b.getD i 0 := by
  refine BitVec.eq_of_getLsbD_eq fun j hj => ?_
  rw [BitVec.getLsbD_extractLsb', decide_eq_true hj, Bool.true_and, getLsbD_be128 hb hi hj]

/-- Byte i of `unbe128` (R12). -/
theorem getD_unbe128 (v : BitVec 128) {i : Nat} (hi : i < 16) :
    (unbe128 v).getD i 0 = v.extractLsb' (8 * (15 - i)) 8 := by
  rw [List.getD_eq_getElem _ _ (by rwa [length_unbe128])]
  simp [unbe128]

/-- A byte of a number shifted left by one takes the top bit of the byte below. -/
theorem extractLsb'_shiftLeft_one (v : BitVec 128) {a : Nat} (ha : a + 16 ≤ 128) :
    (v <<< 1).extractLsb' (a + 8) 8 = (v.extractLsb' (a + 8) 8 <<< 1) ||| (v.extractLsb' a 8 >>> 7) := by
  refine BitVec.eq_of_getLsbD_eq fun j hj => ?_
  cases j with
  | zero => simp [show a + 8 < 128 by omega, BitVec.getLsbD_eq_getElem (x := v) (show a + 7 < 128 by omega)]
  | succ j =>
    have hbit : a + 8 + j + 1 < 128 := by omega
    simp [hj, hbit, BitVec.getLsbD_eq_getElem (x := v) (Nat.lt_of_succ_lt hbit), ← Nat.add_assoc]

/-- The last byte of a number shifted left by one takes a 0. -/
theorem extractLsb'_zero_shiftLeft_one (v : BitVec 128) :
    (v <<< 1).extractLsb' 0 8 = v.extractLsb' 0 8 <<< 1 := by
  refine BitVec.eq_of_getLsbD_eq fun j hj => ?_
  cases j with
  | zero => simp
  | succ j => simp [hj, show j + 1 < 128 by omega, BitVec.getLsbD_eq_getElem (x := v) (show j < 128 by omega)]

/-- What `Dbl` XORs into the last byte (R160). -/
def dblReduction (b : Bytes) : Byte := if (b.getD 0 0).getLsbD 7 then 0x87 else 0x00

/-- `Dbl` with the reduction decided by byte 0 (R160). -/
theorem dbl_eq {b : Bytes} (hb : b.length = 16) :
    dbl b = unbe128 ((be128 b <<< 1) ^^^ (dblReduction b).zeroExtend 128) := by
  have htop : (be128 b).getLsbD 127 = (b.getD 0 0).getLsbD 7 :=
    getLsbD_be128 hb (i := 0) (j := 7) (by decide) (by decide)
  rw [dbl, htop, dblReduction]
  split <;> rfl

@[simp] theorem length_dbl (b : Bytes) : (dbl b).length = 16 := length_unbe128 _

/-- The bytes of `Dbl` before the last: only the shift reaches them (R160). -/
theorem getD_dbl_of_lt {b : Bytes} (hb : b.length = 16) {i : Nat} (hi : i < 15) :
    (dbl b).getD i 0 = (b.getD i 0 <<< 1) ||| (b.getD (i + 1) 0 >>> 7) := by
  have hred : ((dblReduction b).zeroExtend 128).extractLsb' (8 * (15 - i)) 8 = 0#8 := by
    refine BitVec.eq_of_getLsbD_eq fun j hj => ?_
    rw [BitVec.getLsbD_extractLsb', BitVec.getLsbD_setWidth, BitVec.getLsbD_of_ge _ _ (by omega)]
    simp
  have hpos : 8 * (15 - i) = 8 * (15 - (i + 1)) + 8 := by omega
  rw [dbl_eq hb, getD_unbe128 _ (by omega), BitVec.extractLsb'_xor, hred, BitVec.xor_zero, hpos,
    extractLsb'_shiftLeft_one _ (by omega), ← hpos, extractLsb'_be128 hb (by omega), extractLsb'_be128 hb (by omega)]

/-- The last byte of `Dbl`: the shift brings in a 0, and the reduction is XORed (R160). -/
theorem getD_dbl_last {b : Bytes} (hb : b.length = 16) :
    (dbl b).getD 15 0 = (b.getD 15 0 <<< 1) ^^^ dblReduction b := by
  have hred : ((dblReduction b).zeroExtend 128).extractLsb' 0 8 = dblReduction b := by
    rw [BitVec.extractLsb'_setWidth_of_le (by decide), BitVec.extractLsb'_eq_self]
  have hlast : (be128 b).extractLsb' 0 8 = b.getD 15 0 := extractLsb'_be128 hb (i := 15) (by decide)
  rw [dbl_eq hb, getD_unbe128 _ (by decide), BitVec.extractLsb'_xor, Nat.sub_self, Nat.mul_zero, hred,
    extractLsb'_zero_shiftLeft_one, hlast]

/-- Settles O21: the shift of `be128` moves one bit from each byte into the one before it, and the reduction fits the last
byte. -/
theorem doublingShiftsAndReduces : Obligations.DoublingShiftsAndReduces :=
  fun b hb => ⟨length_dbl b, fun _ hi => getD_dbl_of_lt hb hi, getD_dbl_last hb⟩

end Sys2Proof.Machine
end

section
/-! PROOF. CMAC block by block, as a CBC chain from any chaining value (R162, R93). -/

namespace Sys2Proof.Machine

/-- The chain of R162 over the blocks of m, from the chaining value x on. -/
def cmacFrom (k x m : Bytes) : Bytes := (cmacBlocks k m).foldl (fun x b => aes k (xorBytes x b)) x

theorem cmac_eq_cmacFrom (k m : Bytes) : cmac k m = cmacFrom k (zeros 16) m := rfl

theorem cmacBlockCount_of_le {n : Nat} (hn : n ≤ 16) : cmacBlockCount n = 1 := by
  unfold cmacBlockCount blockCount
  omega

theorem cmacBlockCount_add {n : Nat} (hn : 0 < n) : cmacBlockCount (16 + n) = cmacBlockCount n + 1 := by
  unfold cmacBlockCount blockCount
  omega

theorem cmacBlockCount_pos (n : Nat) : 0 < cmacBlockCount n := Nat.le_max_left 1 _

/-- A short final block is padded and takes K2 (R162, R93). -/
theorem cmacLast_of_lt (k : Bytes) {m : Bytes} (hm : m.length < 16) :
    cmacLast k m = xorBytes (m ++ [0x80] ++ zeros (15 - m.length)) (dbl (dbl (aes k (zeros 16)))) := by
  rw [cmacLast, cmacBlockCount_of_le hm.le, if_neg (by omega)]
  rfl

/-- A whole final block takes K1 (R162). -/
theorem cmacLast_of_eq (k : Bytes) {m : Bytes} (hm : m.length = 16) :
    cmacLast k m = xorBytes m (dbl (aes k (zeros 16))) := by
  rw [cmacLast, cmacBlockCount_of_le hm.le, if_pos (by omega)]
  rfl

theorem length_cmacLast_of_le (k : Bytes) {m : Bytes} (hm : m.length ≤ 16) : (cmacLast k m).length = 16 := by
  rcases Nat.lt_or_eq_of_le hm with hlt | heq
  · rw [cmacLast_of_lt k hlt]
    simp
    omega
  · simp [cmacLast_of_eq k heq, heq]

/-- A block in front of a message does not change the adjusted final block. -/
theorem cmacLast_append (k : Bytes) {b m : Bytes} (hb : b.length = 16) (hm : 0 < m.length) :
    cmacLast k (b ++ m) = cmacLast k m := by
  have hpos := cmacBlockCount_pos m.length
  have hdrop : (b ++ m).drop (16 * (cmacBlockCount (16 + m.length) - 1)) =
      m.drop (16 * (cmacBlockCount m.length - 1)) := by
    rw [cmacBlockCount_add hm, show 16 * (cmacBlockCount m.length + 1 - 1) =
      b.length + 16 * (cmacBlockCount m.length - 1) by omega, List.drop_length_add_append]
  have hwhole : (16 + m.length > 0 ∧ (16 + m.length) % 16 = 0) ↔ (m.length > 0 ∧ m.length % 16 = 0) := by omega
  simp only [cmacLast, List.length_append, hb, hdrop, hwhole]

/-- A slice past the block in front of a message is a slice of the message. -/
theorem slice_append_add (b m : Bytes) (a n : Nat) : slice (b ++ m) (b.length + a) n = slice m a n := by
  rw [slice, List.drop_length_add_append, slice]

/-- A message of one block or less is its final block (R162). -/
theorem cmacBlocks_of_le (k : Bytes) {m : Bytes} (hm : m.length ≤ 16) : cmacBlocks k m = [cmacLast k m] := by
  rw [cmacBlocks, cmacBlockCount_of_le hm, Nat.sub_self, List.range_zero, List.map_nil, List.nil_append]

/-- The blocks of a message with a block in front of it are that block and the message's (R162). -/
theorem cmacBlocks_append (k : Bytes) {b m : Bytes} (hb : b.length = 16) (hm : 0 < m.length) :
    cmacBlocks k (b ++ m) = b :: cmacBlocks k m := by
  have hcount : cmacBlockCount (b ++ m).length - 1 = (cmacBlockCount m.length - 1) + 1 := by
    have := cmacBlockCount_pos m.length
    rw [List.length_append, hb, cmacBlockCount_add hm]
    omega
  have hfirst : slice (b ++ m) (16 * 0) 16 = b := List.take_left' hb
  have hnext : ∀ i, slice (b ++ m) (16 * (i + 1)) 16 = slice m (16 * i) 16 := fun i => by
    rw [show 16 * (i + 1) = b.length + 16 * i by omega, slice_append_add]
  rw [cmacBlocks, hcount, cmacLast_append k hb hm, List.range_succ_eq_map, List.map_cons, List.map_map, hfirst,
    List.cons_append, cmacBlocks]
  simp only [Function.comp_def, Nat.succ_eq_add_one, hnext]

/-- The chain over one block or less (R162). -/
theorem cmacFrom_of_le (k x : Bytes) {m : Bytes} (hm : m.length ≤ 16) :
    cmacFrom k x m = aes k (xorBytes x (cmacLast k m)) := by
  rw [cmacFrom, cmacBlocks_of_le k hm, List.foldl_cons, List.foldl_nil]

/-- A block in front of a message is encrypted into the chaining value (R162). -/
theorem cmacFrom_append (k x : Bytes) {b m : Bytes} (hb : b.length = 16) (hm : 0 < m.length) :
    cmacFrom k x (b ++ m) = cmacFrom k (aes k (xorBytes x b)) m := by
  rw [cmacFrom, cmacBlocks_append k hb hm, List.foldl_cons, cmacFrom]

theorem zeros_sixteen_xorBytes {b : Bytes} (hb : b.length = 16) : xorBytes (zeros 16) b = b :=
  hb ▸ zeros_xorBytes b

/-- The tag of one block or less (R162). -/
theorem cmac_of_le (k : Bytes) {m : Bytes} (hm : m.length ≤ 16) : cmac k m = aes k (cmacLast k m) := by
  rw [cmac_eq_cmacFrom, cmacFrom_of_le k _ hm, zeros_sixteen_xorBytes (length_cmacLast_of_le k hm)]

/-- The tag of more than one block, from the encryption of the first block on (R162). -/
theorem cmac_append (k : Bytes) {b m : Bytes} (hb : b.length = 16) (hm : 0 < m.length) :
    cmac k (b ++ m) = cmacFrom k (aes k b) m := by
  rw [cmac_eq_cmacFrom, cmacFrom_append k _ hb hm, zeros_sixteen_xorBytes hb]

theorem cmac_of_gt (k : Bytes) {m : Bytes} (hm : 16 < m.length) :
    cmac k m = cmacFrom k (aes k (m.take 16)) (m.drop 16) := by
  have := cmac_append k (b := m.take 16) (m := m.drop 16) (by simp; omega) (by simp; omega)
  rwa [List.take_append_drop] at this

theorem length_cmac {k : Bytes} (hk : k.length = 16) (m : Bytes) : (cmac k m).length = 16 := by
  rw [cmac, cmacBlocks, List.foldl_append, List.foldl_cons, List.foldl_nil]
  exact length_aes hk _

/-- Carrying the encryption of the first block into the second keeps the tag (R162). -/
theorem cmac_carry {k : Bytes} (hk : k.length = 16) {m : Bytes} (hm : 32 < m.length) :
    cmac k m = cmac k (xorBytes (aes k (m.take 16)) (slice m 16 16) ++ m.drop 32) := by
  have hlen : (slice m 16 16).length = 16 := by simp; omega
  have hsplit : m.drop 16 = slice m 16 16 ++ m.drop 32 := by
    rw [slice, ← List.drop_drop (i := 16) (j := 16), List.take_append_drop]
  have hrest : 0 < (m.drop 32).length := by simp; omega
  rw [cmac_of_gt k (by omega), hsplit, cmacFrom_append k _ hlen hrest,
    cmac_append k (by rw [length_xorBytes, length_aes hk, hlen, Nat.min_self]) hrest]

/-- The tag of more than one and up to two blocks (R162). -/
theorem cmac_of_gt_of_le (k : Bytes) {m : Bytes} (hm : 16 < m.length) (hm' : m.length ≤ 32) :
    cmac k m = aes k (xorBytes (aes k (m.take 16)) (cmacLast k (m.drop 16))) := by
  rw [cmac_of_gt k hm, cmacFrom_of_le k _ (by rw [List.length_drop]; omega)]

/-- Settles O22: the final block is adjusted by its length, and each block before it is encrypted into the chaining
value. -/
theorem cmacChainsItsBlocks : Obligations.CmacChainsItsBlocks := by
  refine fun k m hk => ⟨length_cmac hk m, fun hlt => ?_, fun heq => ?_, fun hgt hlt => ?_, fun heq => ?_, cmac_carry hk⟩
  · rw [cmac_of_le k hlt.le, cmacLast_of_lt k hlt]
  · rw [cmac_of_le k heq.le, cmacLast_of_eq k heq]
  · have hpad : 15 - (m.drop 16).length = 31 - m.length := by rw [List.length_drop]; omega
    rw [cmac_of_gt_of_le k hgt hlt.le, cmacLast_of_lt k (by rw [List.length_drop]; omega), hpad]
  · rw [cmac_of_gt_of_le k (by omega) heq.le, cmacLast_of_eq k (by rw [List.length_drop]; omega)]

end Sys2Proof.Machine
end

section
/-! PROOF. `CMAC.TAG` returns `CMAC` of its operands, and faults on a key of a wrong length (R165). -/

namespace Sys2Proof.Machine

/-- A command whose one check is the length of its key returns its result or faults with `BAD_OPERAND` (R58, R60). -/
theorem command_keyOk (k r : Bytes) {s : State} (hf : s.fault = 0#8) :
    (k.length = 16 → command [(keyOk k, .badOperand)] r s = .next { s with result := some r }) ∧
    (k.length ≠ 16 → command [(keyOk k, .badOperand)] r s = .next { s with fault := 0x02#8, result := none }) := by
  refine ⟨fun hk => ?_, fun hk => ?_⟩
  · rw [(keyOk_iff k).2 hk]
    exact command_completes hf (firstFailure_pass .badOperand []) r
  · rw [(keyOk_eq_false_iff k).2 hk]
    exact command_faults hf (firstFailure_fail .badOperand []) r

/-- Settles O20: word 0x21 selects `CMAC.TAG`, whose one check is the length of its key. -/
theorem cmacTagReturnsTheTag : Obligations.CmacTagReturnsTheTag :=
  ⟨fun _ => rfl, fun k m s hf => exec_cmacTag k m s ▸ command_keyOk k (cmac k m) hf⟩

end Sys2Proof.Machine
end

section
/-! PROOF. `MS.BUILD` returns `MsBuild` of its operands, and faults on a wrong key length, then on a long payload (R189). -/

namespace Sys2Proof.Machine

variable {km p : Bytes} {sid pid : Word} {s : State}

/-- `MS.BUILD` of a 16-byte key and a payload of at most `MAX_PAYLOAD` bytes (R189). -/
theorem exec_msBuild_completes (hf : s.fault = 0#8) (hk : km.length = 16) (hp : p.length ≤ Config.maxPayload) :
    exec (.msBuild km sid pid p) s = .next { s with result := some (msBuild Config.meshFlags km sid pid p) } := by
  rw [exec_msBuild, (keyOk_iff km).2 hk, (payloadOk_iff p).2 hp]
  exact command_completes hf (by rw [firstFailure_pass, firstFailure_pass, firstFailure_nil]) _

/-- `MS.BUILD` of a 16-byte key and a payload past `MAX_PAYLOAD` (R189). -/
theorem exec_msBuild_oversize (hf : s.fault = 0#8) (hk : km.length = 16) (hp : Config.maxPayload < p.length) :
    exec (.msBuild km sid pid p) s = .next { s with fault := 0x03#8, result := none } := by
  rw [exec_msBuild, (keyOk_iff km).2 hk, (payloadOk_eq_false_iff p).2 hp]
  exact command_faults hf (c := .oversize) (by rw [firstFailure_pass, firstFailure_fail]) _

/-- `MS.BUILD` of a key of another length, whatever the payload: the key is checked first (R189, R255). -/
theorem exec_msBuild_badOperand (hf : s.fault = 0#8) (hk : km.length ≠ 16) :
    exec (.msBuild km sid pid p) s = .next { s with fault := 0x02#8, result := none } := by
  rw [exec_msBuild, (keyOk_eq_false_iff km).2 hk]
  exact command_faults hf (firstFailure_fail .badOperand _) _

/-- Settles O26: word 0x32 selects `MS.BUILD`, which checks the length of its key and then that of its payload. -/
theorem msBuildReturnsThePacket : Obligations.MsBuildReturnsThePacket :=
  ⟨fun _ => rfl, fun _ _ _ _ _ hf =>
    ⟨exec_msBuild_completes hf, exec_msBuild_oversize hf, exec_msBuild_badOperand hf⟩⟩

end Sys2Proof.Machine
end

section
/-! PROOF. `CTL.DISPATCH` starts the read of a pending notification, and its code is no input (R71, R220). -/

namespace Sys2Proof.Machine

/-- The internal code is refused on either port, behind the check of `RSV` alone (R71, R76). -/
theorem decode_internalCode {w : Word} (hw : codeField w = 0xC0#8) (port : Port) (o : Operands) :
    ∃ e, decode port w o = .error e := by
  by_cases hr : rsvField w = 0#16
  · exact ⟨.internalCode, by rw [decode, if_neg (not_not_intro hr), if_pos hw]⟩
  · exact ⟨.reservedNotZero, by rw [decode, if_pos hr]⟩

/-- The internal step where it is enabled (R220). -/
theorem exec_ctlDispatch_enabled {s : State} (h : dispatchEnabled s = true) :
    exec .ctlDispatch s = .next { s with rxPend := false, trace := s.trace ++ [.read], phase := .listenRead } :=
  if_pos h

/-- Settles O32: the three conditions are the enabling of the step, and decoding checks the internal code before the rows. -/
theorem dispatchStartsTheRead : Obligations.DispatchStartsTheRead :=
  ⟨fun port _ o hw => decode_internalCode hw port o,
    fun s hf hp hr => exec_ctlDispatch_enabled ((dispatchEnabled_iff s).2 ⟨hf, hp, hr⟩)⟩

end Sys2Proof.Machine
end

section
/-! PROOF. `EV.TXRESP` in `MESH_TX` records the result and resumes listening (R225). -/

namespace Sys2Proof.Machine

theorem and_not_or_self {w : Nat} (v m : BitVec w) : (v &&& ~~~m) ||| m = v ||| m := by
  ext i hi
  cases hm : m[i] <;> simp [hm]

/-- Setting a bit of `STATUS` is an OR with its mask (R35). -/
theorem writeStatusBit_true (st : Byte) (n : Nat) : writeStatusBit st n true = st ||| (1 <<< n : Byte) :=
  and_not_or_self st _

/-- Clearing a bit of `STATUS` is an AND with the complement of its mask (R35). -/
theorem writeStatusBit_false (st : Byte) (n : Nat) : writeStatusBit st n false = st &&& ~~~(1 <<< n : Byte) :=
  BitVec.or_zero

/-- `MSTXFAIL` is cleared by a transmit that succeeded and set by one that failed (R225). -/
theorem setMsTxFail_not (st : Byte) (ok : Bool) :
    setMsTxFail st (!ok) = if ok then st &&& 0xFB#8 else st ||| 0x04#8 := by
  cases ok with
  | false => exact writeStatusBit_true st 2
  | true => exact writeStatusBit_false st 2

/-- The word of a transmit result, on the event port (R72, R73). -/
theorem decode_evTxresp (ok : Bool) (o : Operands) :
    decode .event (wordOf 0x83 (immOfOk ok)) o = .ok (.evTxresp ok) := by
  cases ok with
  | false => rfl
  | true => rfl

/-- The answer to the Meshtastic transmit (R225). -/
theorem exec_evTxresp_meshTx {s : State} (hf : s.fault = 0#8) (hp : s.phase = .meshTx) (ok : Bool) :
    exec (.evTxresp ok) s =
      .next (resumeListening ((s.setStatus (setMsTxFail s.status (!ok))).setRxBuf [])) := by
  rw [exec, execEvTxresp, whenRunning_safe hf, hp]

/-- Settles O37: the outcome is the model's, with the status write and the two emitted actions written out. -/
theorem meshTransmitAnswerResumesListening : Obligations.MeshTransmitAnswerResumesListening := by
  refine ⟨decode_evTxresp, fun ok s hf hp => ?_⟩
  rw [exec_evTxresp_meshTx hf hp, setMsTxFail_not, resumeListening_eq, List.append_assoc]
  rfl

end Sys2Proof.Machine
end

section
/-! PROOF. Decoding inverts encoding, and refuses the words of R75 alone (R70 to R76). -/

namespace Sys2Proof.Machine

/-- The answer to a read, as a word of the event port (R72, R73). -/
theorem decode_evRdresp (ok : Bool) (o : Operands) :
    decode .event (wordOf 0x82 (immOfOk ok)) o = .ok (.evRdresp ok o.bytes1 o.length o.rssi o.snr) := by
  cases ok with
  | false => rfl
  | true => rfl

/-- Settles O1: each encoded word has `RSV` zero, a code of the table on its port, and an `IMM8` its row allows. -/
theorem decodeEncodeAgree : Obligations.DecodeEncodeAgree := by
  intro i
  cases i with
  | ctlDispatch => rfl
  | evTxresp ok => exact decode_evTxresp ok _
  | evRdresp ok d n r q => exact decode_evRdresp ok _
  | ctrLwan dir k addr fc d => exact decode_wordOf (code := 0x11) _ (by decide) rfl rfl
  | regRead n => exact decode_wordOf (code := 0x40) _ (by decide) rfl rfl
  | _ => rfl

/-- The `IMM8` that the encoder writes under a rule of R73 for the operand read from `v`. -/
def immWritten : ImmRule → Byte → Byte
  | .zero, _ => 0
  | .any, v => v
  | .okBit, v => immOfOk (okOf v)

/-- An allowed `IMM8` is the one that the encoder writes (R73). -/
theorem immWritten_eq {r : ImmRule} {v : Byte} (h : immAllowed r v = true) : immWritten r v = v := by
  cases r with
  | zero => exact (of_decide_eq_true h).symm
  | any => rfl
  | okBit =>
    have hbits : ∀ v : Byte, immAllowed .okBit v = true → immOfOk (okOf v) = v := by decide +kernel
    exact hbits v h

/-- What a word that decodes satisfies: its fields are those of a row of the table (R76). -/
theorem decode_eq_ok {port : Port} {w : Word} {o : Operands} {i : Instr} (h : decode port w o = .ok i) :
    ∃ r, rowOf (codeField w) = some r ∧ rsvField w = 0#16 ∧ r.port = port ∧ immAllowed r.imm (immField w) = true ∧
      i = r.build (immField w) o := by
  unfold decode at h
  split_ifs at h with hrsv hint
  split at h
  · cases h
  · rename_i r hr
    split_ifs at h with hport himm
    cases h
    exact ⟨r, hr, not_not.1 hrsv, not_not.1 hport, by simpa using himm, rfl⟩

theorem rowOf_eq_some {c : Byte} {r : Row} (h : rowOf c = some r) : r ∈ codeRows ∧ r.code = c :=
  ⟨List.mem_of_find?_eq_some h, by simpa using List.find?_some h⟩

/-- What a row builds is encoded on the row's port with the row's code (R72, R73). -/
theorem encode_build {r : Row} (hr : r ∈ codeRows) (imm : Byte) (o : Operands) :
    ∃ o', encode (r.build imm o) = .input r.port (wordOf r.code (immWritten r.imm imm)) o' := by
  fin_cases hr <;> exact ⟨_, rfl⟩

/-- Settles O2: the word's fields are those of its row, which the encoder writes back; its operand record decodes again by
O1. -/
theorem decodedWordHasOneMeaning : Obligations.DecodedWordHasOneMeaning := by
  intro port w o i h
  obtain ⟨r, hr, hrsv, rfl, himm, rfl⟩ := decode_eq_ok h
  obtain ⟨hmem, hcode⟩ := rowOf_eq_some hr
  obtain ⟨o', ho'⟩ := encode_build hmem (immField w) o
  rw [immWritten_eq himm, hcode, wordOf_fields w hrsv] at ho'
  refine ⟨o', ho', ?_⟩
  have hround := decodeEncodeAgree (r.build (immField w) o)
  rwa [ho'] at hround

/-- The codes without a row are those of R75's list and the internal code (R72). -/
theorem rowOf_eq_none_iff : ∀ c : Byte, (rowOf c).isNone = (unassignedCode c || c == 0xC0#8) := by decide +kernel

/-- What R75 says of a code's port and `IMM8` is what the code's row says (R71, R73). -/
theorem row_agrees {r : Row} (hr : r ∈ codeRows) :
    (∀ port, outsidePort port r.code = !decide (r.port = port)) ∧
    ∀ v, immDisallowed r.code v = !immAllowed r.imm v := by
  fin_cases hr <;> exact ⟨fun port => by cases port <;> rfl, fun v => rfl⟩

/-- Settles O3: a code has no row exactly where R75 lists it, and a row's port and `IMM8` rule are R75's. -/
theorem refusedWordsAreThoseOfR75 : Obligations.RefusedWordsAreThoseOfR75 := by
  intro port w o
  have hnone := rowOf_eq_none_iff (codeField w)
  cases hr : rowOf (codeField w) with
  | none =>
    have hcode : unassignedCode (codeField w) = true ∨ codeField w = 0xC0#8 := by simpa [hr] using hnone.symm
    have hdec : ∃ e, decode port w o = .error e := by
      unfold decode
      rw [hr]
      split_ifs <;> exact ⟨_, rfl⟩
    have hill : illegalWord port w = true := by
      rcases hcode with h | h <;> simp [illegalWord, h]
    exact iff_of_true hdec hill
  | some r =>
    obtain ⟨hmem, hcode⟩ := rowOf_eq_some hr
    obtain ⟨hport, himm⟩ := row_agrees hmem
    have hassigned : unassignedCode r.code = false ∧ r.code ≠ 0xC0#8 := by
      simpa [hcode, hr] using hnone.symm
    obtain ⟨hua, hint⟩ := hassigned
    rw [decode, hr, illegalWord, ← hcode, hport, himm, hua, if_neg hint, Bool.or_false, beq_eq_false_iff_ne.2 hint,
      Bool.or_false]
    dsimp only
    split_ifs <;> simp [*]

end Sys2Proof.Machine
end

section
/-! PROOF. A step runs the instruction its turn decodes to, or raises `ILLEGAL_COMMAND`, and always answers a next state
(R62, R75). -/

namespace Sys2Proof.Machine

variable {s : State}

/-- A step whose turn decodes (R62). -/
theorem step_of_decodes {i : Instr} (h : decodeTurn (nextTurn s) = .ok i) : step s = exec i (afterFetch s) := by
  rw [step, h]

/-- A step whose turn does not decode (R75). -/
theorem step_of_refused {e : DecodeError} (h : decodeTurn (nextTurn s) = .error e) :
    step s = illegalCommand (afterFetch s) := by
  rw [step, h]

/-- Settles O4: the decoder refuses the illegal word, and the step is that of `illegalCommand` behind the fetch. -/
theorem illegalWordRaisesIllegalCommand : Obligations.IllegalWordRaisesIllegalCommand := by
  intro s port w o rest hw ha
  obtain ⟨e, he⟩ := (refusedWordsAreThoseOfR75 port w o).2 hw
  rw [step_of_refused (show decodeTurn (nextTurn s) = .error e by rw [nextTurn_cons ha]; exact he), afterFetch_eq, ha]
  exact ⟨fun hf => illegalCommand_safe hf, fun hf => illegalCommand_stuck hf⟩

/-- Settles O5: the turn is the head of the agenda, or the core's own step. -/
theorem stepRunsTheDecodedTurn : Obligations.StepRunsTheDecodedTurn := by
  refine fun s => ⟨fun u rest i ha hi => ?_, fun ha => ?_⟩
  · rw [step_of_decodes (show decodeTurn (nextTurn s) = .ok i by rwa [nextTurn_cons ha]), afterFetch_eq, ha]
    rfl
  · rw [step_of_decodes (show decodeTurn (nextTurn s) = .ok .ctlDispatch by rw [nextTurn_nil ha]; rfl), afterFetch_eq, ha,
      List.tail_nil]

/-- Settles O6: each word is written out, so that decoding it computes. -/
theorem specWordsDecode : Obligations.SpecWordsDecode :=
  fun _ => ⟨rfl, rfl, rfl, rfl, rfl, rfl, rfl, rfl, rfl, rfl, rfl, rfl, rfl, rfl, rfl⟩

theorem whenRunning_answers {k : Outcome} (hk : ∃ t, k = .next t) (s : State) : ∃ t, whenRunning s k = .next t := by
  unfold whenRunning
  split
  · exact hk
  · exact ⟨_, rfl⟩

theorem exec_command_answers {i : Instr} (hc : isCommand i = true) (hr : isRegRead i = false) (s : State) :
    ∃ t, exec i s = .next t := by
  obtain ⟨checks, r, he⟩ := exec_command i hc hr
  exact he s ▸ command_answers checks r s

/-- No instruction stops the machine: a fault of the core is a next state (R250, R252). -/
theorem exec_answers (i : Instr) (s : State) : ∃ t, exec i s = .next t := by
  cases i with
  | regRead n =>
    rw [exec, execRegRead]
    split
    · exact ⟨_, rfl⟩
    · exact whenRunning_answers ⟨_, rfl⟩ s
  | evReset p f c =>
    rw [exec, execEvReset]
    split
    · exact ⟨_, rfl⟩
    · exact whenRunning_answers ⟨_, rfl⟩ s
  | evRxsig => exact whenRunning_answers ⟨_, rfl⟩ s
  | evRdresp ok d n r q =>
    refine whenRunning_answers ?_ s
    split_ifs <;> exact ⟨_, rfl⟩
  | evTxresp ok =>
    refine whenRunning_answers ?_ s
    split <;> exact ⟨_, rfl⟩
  | ctlDispatch =>
    rw [exec, execCtlDispatch]
    split <;> exact ⟨_, rfl⟩
  | _ => exact exec_command_answers rfl rfl s

/-- Settles O50: neither an instruction nor an illegal word stops the machine. -/
theorem everyStepAnswersANextState : Obligations.EveryStepAnswersANextState := by
  intro s
  cases h : decodeTurn (nextTurn s) with
  | ok i => exact step_of_decodes h ▸ exec_answers i _
  | error e => exact step_of_refused h ▸ whenRunning_answers ⟨_, rfl⟩ _

end Sys2Proof.Machine
end

section
/-! PROOF. The registers stay legal (R21, R23, R31, R35, R250, R286). -/

namespace Sys2Proof.Machine

variable {i : Instr} {s t : State}

/-- Writing one of the three flags leaves the reserved bits of `STATUS` 0 (R35). -/
theorem writeStatusBit_reserved {st : Byte} (h : st &&& 0xF8#8 = 0#8) {n : Nat} (hn : n < 3) (b : Bool) :
    writeStatusBit st n b &&& 0xF8#8 = 0#8 := by
  have hbit : (if b then (1 <<< n : Byte) else 0) &&& 0xF8#8 = 0#8 := by
    interval_cases n <;> cases b <;> rfl
  rw [writeStatusBit, BitVec.and_or_distrib_right, hbit, BitVec.and_assoc, BitVec.and_comm _ 0xF8#8,
    ← BitVec.and_assoc, h, BitVec.zero_and, BitVec.or_zero]

/-- Reset writes the provisioning registers with their parameters, and no other effect writes them (R21, R23). -/
theorem Effect.provisioning_cases (he : Effect i s t) :
    (isReset i = true ∧ t.Provisioned) ∨
    (t.keyNwk = s.keyNwk ∧ t.keyApp = s.keyApp ∧ t.keyMesh = s.keyMesh ∧
      t.devAddr = s.devAddr ∧ t.nodeId = s.nodeId) := by
  cases he with
  | reset p f c hi =>
    subst hi
    exact .inl ⟨rfl, rfl, rfl, rfl, rfl, rfl⟩
  | none | faulted | returned | signalled | dispatched => exact .inr ⟨rfl, rfl, rfl, rfl, rfl⟩
  | readFailed | readAccepted | lwanSent | meshSent =>
    exact .inr (by simp [resumeListening_eq, lwanHandoff_eq, meshHandoff_eq])

theorem Effect.provisioned (he : Effect i s t) (hs : s.Provisioned) : t.Provisioned := by
  rcases he.provisioning_cases with ⟨_, ht⟩ | ⟨hkn, hka, hkm, hda, hni⟩
  · exact ht
  · exact ⟨hkn.trans hs.keyNwk, hka.trans hs.keyApp, hkm.trans hs.keyMesh, hda.trans hs.devAddr, hni.trans hs.nodeId⟩

/-- Every effect of an instruction keeps the reserved bits of `STATUS` 0 (R35). -/
theorem Effect.statusReserved (he : Effect i s t) (hs : s.status &&& 0xF8#8 = 0#8) : t.status &&& 0xF8#8 = 0#8 := by
  cases he with
  | none | faulted | returned | signalled | dispatched => exact hs
  | readFailed | readAccepted | lwanSent | meshSent => exact writeStatusBit_reserved hs (by decide) _
  | reset => exact BitVec.zero_and

/-- Every effect of an instruction leaves an assigned code in `FAULT` (R250). -/
theorem Effect.faultAssigned (he : Effect i s t) (hs : s.fault.toNat ≤ 5) : t.fault.toNat ≤ 5 := by
  cases he with
  | faulted c => exact c.code_le_five
  | reset => exact Nat.zero_le _
  | none | returned | signalled | dispatched => exact hs
  | readFailed | readAccepted | lwanSent | meshSent =>
    simpa [resumeListening_eq, lwanHandoff_eq, meshHandoff_eq] using hs

/-- Every effect of an instruction keeps the bound of `RXBUF` (R31, R286). -/
theorem Effect.bufferBound (he : Effect i s t) (hs : s.rxBuf.length ≤ Config.maxPayload) :
    t.rxBuf.length ≤ Config.maxPayload := by
  cases he with
  | readAccepted d r q _ _ _ hd => exact hd
  | meshSent | reset => exact Nat.zero_le _
  | none | faulted | returned | signalled | dispatched => exact hs
  | readFailed | lwanSent => simpa [resumeListening_eq, meshHandoff_eq] using hs

/-- Every effect of an instruction keeps `RXBUF` empty while listening (R31). -/
theorem Effect.bufferScope (he : Effect i s t) (hs : s.phase = .listenIdle ∨ s.phase = .listenRead → s.rxBuf = [])
    (ht : t.phase = .listenIdle ∨ t.phase = .listenRead) : t.rxBuf = [] := by
  cases he with
  | none | faulted | returned | signalled => exact hs ht
  | dispatched _ _ hp => exact hs (.inl hp)
  | readFailed _ _ _ _ _ _ hp => exact hs (.inr hp)
  | readAccepted => simp [lwanHandoff_eq] at ht
  | lwanSent => simp [meshHandoff_eq] at ht
  | meshSent | reset => rfl

/-- Every effect of an instruction keeps the registers legal. -/
theorem Effect.registersLegal (he : Effect i s t) (hs : s.RegistersLegal) : t.RegistersLegal :=
  ⟨he.provisioned hs.provisioned, he.statusReserved hs.statusReserved, he.faultAssigned hs.faultAssigned,
    he.bufferBound hs.bufferBound, he.bufferScope hs.bufferScope⟩

/-- What every effect and the taking of the turn keep, every step keeps: an illegal word has the effect of a recorded fault,
or none (R75, R252). -/
theorem step_keeps {P : State → Prop} (hP : ∀ i s t, Effect i s t → P s → P t)
    (hfetch : ∀ s, P s → P (afterFetch s)) (h : step s = .next t) (hs : P s) : P t := by
  rcases step_cases h with ⟨i, _, he⟩ | ⟨hf, rfl⟩ | ⟨_, rfl⟩
  · exact hP i _ _ he (hfetch s hs)
  · exact hP .ctlDispatch _ _ (.faulted .illegalCommand hf) (hfetch s hs)
  · exact hfetch s hs

theorem State.RegistersLegal.afterFetch (hs : s.RegistersLegal) : (afterFetch s).RegistersLegal := by
  obtain ⟨⟨hkn, hka, hkm, hda, hni⟩, hst, hf, hbound, hscope⟩ := hs
  exact ⟨⟨hkn, hka, hkm, hda, hni⟩, hst, hf, hbound, hscope⟩

/-- Settles O59: each effect of an instruction keeps each clause, and so does a step. -/
theorem stepKeepsRegistersLegal : Obligations.StepKeepsRegistersLegal :=
  fun _ _ hs h => step_keeps (fun _ _ _ he => he.registersLegal) (fun _ => State.RegistersLegal.afterFetch) h hs

end Sys2Proof.Machine
end

section
/-! PROOF. The trace stays legal (R210, R215, R226), and the state after reset is legal. -/

namespace Sys2Proof.Machine

variable {i : Instr} {s t : State}

theorem lastCfg_append (l r : List Action) : lastCfg (l ++ r) = (lastCfg r).or (lastCfg l) := by
  induction l with
  | nil => simp [lastCfg]
  | cons a l ih => cases a <;> simp [lastCfg, ih]

/-- A list that does not begin with a `TX` may follow any other (R226). -/
theorem txFollowsCfg_append {r : List Action} (hr : txFollowsCfg true r = txFollowsCfg false r) (b : Bool)
    (l : List Action) : txFollowsCfg b (l ++ r) = (txFollowsCfg b l && txFollowsCfg false r) := by
  induction l generalizing b with
  | nil => cases b <;> simp [txFollowsCfg, hr]
  | cons a l ih => cases a <;> simp [txFollowsCfg, ih, Bool.and_assoc]

/-- A `CFG` is no request (R215). -/
theorem requestMatches_cfg (p : Phase) (d : Descriptor) : requestMatches p (some (.cfg d)) = false := by
  cases p <;> rfl

/-- The trace stays legal when a transition configures the radio for its new phase and makes that phase's request. -/
theorem traceLegal_of_cfg_request {a : Action} (hs : s.TraceLegal)
    (ht : t.trace = s.trace ++ [.cfg (phaseCfg t), a]) (ha : requestMatches t.phase (some a) = true) : t.TraceLegal := by
  refine ⟨?_, ?_, ?_⟩
  · rw [ht, lastCfg_append]
    cases a with
    | cfg d => exact absurd ha (by rw [requestMatches_cfg]; exact Bool.false_ne_true)
    | startRx | read | tx => rfl
  · rwa [ht, List.getLast?_append]
  · rw [ht, txFollowsCfg_append rfl, hs.txConfigured]
    cases a <;> rfl

/-- The trace stays legal where neither it nor what it is held to changes. -/
theorem State.TraceLegal.congr (hs : s.TraceLegal) (ht : t.trace = s.trace) (hp : t.phase = s.phase)
    (hc : t.chIdx = s.chIdx) : t.TraceLegal := by
  have hcfg : phaseCfg t = phaseCfg s := by rw [phaseCfg, phaseCfg, hp, hc]
  exact ⟨by rw [ht, hcfg, hs.radioConfigured], by rw [ht, hp, hs.requestOutstanding], by rw [ht, hs.txConfigured]⟩

/-- The read keeps the configuration of listening, and makes its request (R220). -/
theorem State.TraceLegal.dispatched (hs : s.TraceLegal) (hp : s.phase = .listenIdle) :
    { s with rxPend := false, trace := s.trace ++ [.read], phase := .listenRead : State }.TraceLegal := by
  have hcfg := hs.radioConfigured
  rw [phaseCfg, hp] at hcfg
  refine ⟨?_, ?_, ?_⟩
  · rw [lastCfg_append]
    exact hcfg
  · rw [List.getLast?_append]
    rfl
  · rw [txFollowsCfg_append rfl, hs.txConfigured]
    rfl

theorem resetTo_traceLegal (p : Word) (f : Half) (c : BitVec 3) (s : State) : (resetTo p f c s).TraceLegal :=
  ⟨rfl, rfl, rfl⟩

/-- Every effect of an instruction keeps the trace legal. -/
theorem Effect.traceLegal (he : Effect i s t) (hs : s.TraceLegal) : t.TraceLegal := by
  cases he with
  | none | faulted | returned | signalled => exact hs.congr rfl rfl rfl
  | dispatched _ _ hp => exact hs.dispatched hp
  | readFailed | meshSent =>
    exact traceLegal_of_cfg_request (a := .startRx) hs (by simp [resumeListening_eq, phaseCfg]) rfl
  | readAccepted d =>
    exact traceLegal_of_cfg_request (a := .tx (lwanFrame ((s.setStatus (setRdFail s.status false)).setRxBuf d))) hs
      (by simp [lwanHandoff_eq, phaseCfg]) rfl
  | lwanSent ok =>
    exact traceLegal_of_cfg_request (a := .tx (meshPacket (s.setStatus (setLwTxFail s.status (!ok))))) hs
      (by simp [meshHandoff_eq, phaseCfg]) rfl
  | reset => exact resetTo_traceLegal _ _ _ _

/-- Settles O60: each effect of an instruction keeps the trace legal, and so does a step. -/
theorem stepKeepsTraceLegal : Obligations.StepKeepsTraceLegal :=
  fun _ _ hs h => step_keeps (fun _ _ _ he => he.traceLegal) (fun _ hs => hs.congr rfl rfl rfl) h hs

/-- Settles O58: the registers hold what each clause asks, and the trace is that of a reset. -/
theorem resetStateIsLegal : Obligations.ResetStateIsLegal :=
  ⟨⟨⟨rfl, rfl, rfl, rfl, rfl⟩, rfl, Nat.zero_le _, Nat.zero_le _, fun _ => rfl⟩, rfl, rfl, rfl⟩

end Sys2Proof.Machine
end

section
/-! PROOF. What the commands return, and the fault of each failing check (R123, R124, R145, R164, R181, R187, R96). -/

namespace Sys2Proof.Machine

variable {s : State}

/-- Settles O7: word 0x01 selects `AES.KEYEXP`, whose one check is the length of its key. -/
theorem aesKeyexpReturnsTheSchedule : Obligations.AesKeyexpReturnsTheSchedule :=
  ⟨fun _ => rfl, fun k s hf => exec_aesKeyexp k s ▸ command_keyOk k (keyExpand k) hf⟩

/-- Settles O19: word 0x20 selects `CMAC.SUBKEYS`, whose one check is the length of its key. -/
theorem cmacSubkeysReturnsBothSubkeys : Obligations.CmacSubkeysReturnsBothSubkeys :=
  ⟨fun _ => rfl, fun k s hf => exec_cmacSubkeys k s ▸ command_keyOk k (cmacK1 k ++ cmacK2 k) hf⟩

/-- `AES.ENCRK` of a 176-byte schedule and a 16-byte block (R124). -/
theorem exec_aesEncrk_completes {sched p : Bytes} (hf : s.fault = 0#8) (hk : sched.length = 176) (hp : p.length = 16) :
    exec (.aesEncrk sched p) s = .next { s with result := some (encryptBlock sched p) } := by
  rw [exec_aesEncrk, (scheduleOk_iff sched).2 hk, (blockOk_iff p).2 hp]
  exact command_completes hf rfl _

/-- `AES.ENCRK` of a schedule or a block of another length (R124). -/
theorem exec_aesEncrk_faults {sched p : Bytes} (hf : s.fault = 0#8) (h : sched.length ≠ 176 ∨ p.length ≠ 16) :
    exec (.aesEncrk sched p) s = .next { s with fault := 0x02#8, result := none } := by
  rw [exec_aesEncrk]
  exact command_faults hf
    (firstFailure_pair_of_fail _ (h.imp (scheduleOk_eq_false_iff sched).2 (blockOk_eq_false_iff p).2)) _

/-- Settles O14: word 0x11 selects `CTR.LWAN` with any Dir, and its key is checked before its block bound. -/
theorem ctrLwanReturnsTheStream : Obligations.CtrLwanReturnsTheStream := by
  refine ⟨fun dir o => decode_wordOf (code := 0x11) o (by decide) rfl rfl,
    fun dir k addr fc d s hf => ⟨fun hk hd => ?_, fun hk hd => ?_, fun hk => ?_⟩⟩
  · rw [exec_ctrLwan, (keyOk_iff k).2 hk, (blocksOk_iff d).2 hd]
    exact command_completes hf rfl _
  · rw [exec_ctrLwan, (keyOk_iff k).2 hk, (blocksOk_eq_false_iff d).2 hd]
    exact command_faults hf (c := .ctrRange) rfl _
  · rw [exec_ctrLwan, (keyOk_eq_false_iff k).2 hk]
    exact command_faults hf (c := .badOperand) rfl _

/-- Settles O23: word 0x30 selects `PB.ENC`, which has no check to fail. -/
theorem pbEncReturnsTheMicroEncoding : Obligations.PbEncReturnsTheMicroEncoding :=
  ⟨fun _ => rfl, fun port p s hf => exec_pbEnc port p s ▸ command_completes hf firstFailure_nil (pbEnc port p)⟩

/-- Settles O25: word 0x31 selects `LW.BUILD`, which checks the lengths of its keys and then that of its payload. -/
theorem lwBuildReturnsTheFrame : Obligations.LwBuildReturnsTheFrame := by
  refine ⟨fun _ => rfl, fun kn ka addr fc p s hf => ⟨fun hn ha hp => ?_, fun hn ha hp => ?_, fun h => ?_⟩⟩
  · rw [exec_lwBuild, (keyOk_iff kn).2 hn, (keyOk_iff ka).2 ha, (payloadOk_iff p).2 hp]
    exact command_completes hf rfl _
  · rw [exec_lwBuild, (keyOk_iff kn).2 hn, (keyOk_iff ka).2 ha, (payloadOk_eq_false_iff p).2 hp]
    exact command_faults hf (c := .oversize) rfl _
  · rw [exec_lwBuild]
    refine command_faults hf (c := .badOperand) ?_ _
    by_cases hn : kn.length = 16
    · rw [(keyOk_iff kn).2 hn, (keyOk_eq_false_iff ka).2 (h.resolve_left (not_not_intro hn))]
      rfl
    · rw [(keyOk_eq_false_iff kn).2 hn]
      rfl

/-- Settles O30: each pseudo-instruction is its core command, whose statement then applies; the MIC is the beginning of the
tag that `LW.MIC` returns. -/
theorem pseudoInstructionsExpand : Obligations.PseudoInstructionsExpand := by
  intro k addr fc d s hf hk
  refine ⟨pbEncReturnsTheMicroEncoding.2 textPort d s hf, (ctrLwanReturnsTheStream.2 dirUp k addr fc d s hf).1 hk,
    fun hd => ?_, fun hd => if_neg (by omega)⟩
  exact ⟨_, _, if_pos hd, (cmacTagReturnsTheTag.2 k _ s hf).1 hk, rfl⟩

end Sys2Proof.Machine
end

section
/-! PROOF. What the events do (R218, R221 to R224). -/

namespace Sys2Proof.Machine

variable {s : State}

/-- The signal in a core without a fault (R218). -/
theorem exec_evRxsig (hf : s.fault = 0#8) : exec .evRxsig s = .next { s with rxPend := true } :=
  whenRunning_safe hf _

/-- Settles O31: the signal sets the notification, which a pending one already is. -/
theorem rxsigLatchesTheNotification : Obligations.RxsigLatchesTheNotification := by
  refine ⟨fun _ => rfl, fun s hf => ⟨exec_evRxsig hf, fun hr => ?_⟩⟩
  rw [exec_evRxsig hf, ← hr]

/-- `RDFAIL` set (R35, R221). -/
theorem setRdFail_true (st : Byte) : setRdFail st true = st ||| 0x01#8 := writeStatusBit_true st 0

/-- `RDFAIL` cleared (R35, R221). -/
theorem setRdFail_false (st : Byte) : setRdFail st false = st &&& 0xFE#8 := writeStatusBit_false st 0

/-- `LWTXFAIL` is cleared by a transmit that succeeded and set by one that failed (R223). -/
theorem setLwTxFail_not (st : Byte) (ok : Bool) :
    setLwTxFail st (!ok) = if ok then st &&& 0xFD#8 else st ||| 0x02#8 := by
  cases ok with
  | false => exact writeStatusBit_true st 1
  | true => exact writeStatusBit_false st 1

/-- An answer to no read (R216). -/
theorem exec_evRdresp_unawaited (hf : s.fault = 0#8) (hp : s.phase ≠ .listenRead) (ok : Bool) (d : Bytes) (n r q : Nat) :
    exec (.evRdresp ok d n r q) s = raise .protocol s := by
  rw [exec, execEvRdresp, whenRunning_safe hf, if_pos hp]

/-- The answer of a failed read (R221). -/
theorem exec_evRdresp_failed (hf : s.fault = 0#8) (hp : s.phase = .listenRead) (d : Bytes) (n r q : Nat) :
    exec (.evRdresp false d n r q) s = .next (resumeListening (s.setStatus (setRdFail s.status true))) := by
  rw [exec, execEvRdresp, whenRunning_safe hf, if_neg (not_not_intro hp), if_pos rfl]

/-- The answer of a successful read, by its two checks (R213, R221). -/
theorem exec_evRdresp_ok (hf : s.fault = 0#8) (hp : s.phase = .listenRead) (d : Bytes) (n r q : Nat) :
    exec (.evRdresp true d n r q) s =
      if n ≠ d.length then raise .protocol s
      else if payloadOk d = false then raise .oversize s
      else .next (lwanHandoff ((s.setStatus (setRdFail s.status false)).setRxBuf d)) := by
  rw [exec, execEvRdresp, whenRunning_safe hf, if_neg (not_not_intro hp), if_neg Bool.true_eq_false.mp]

/-- Settles O33: the outcome is the model's, with the status write and the two emitted actions written out. -/
theorem failedReadResumesListening : Obligations.FailedReadResumesListening := by
  refine ⟨decode_evRdresp false, fun d n r q s hf hp => ?_⟩
  rw [exec_evRdresp_failed hf hp, setRdFail_true, resumeListening_eq, List.append_assoc]
  rfl

/-- Settles O34: both checks hold, and the hand-off is the model's with the two emitted actions written out. -/
theorem acceptedReadHandsOffTheLorawanFrame : Obligations.AcceptedReadHandsOffTheLorawanFrame := by
  refine ⟨decode_evRdresp true, fun d r q s hf hp hd => ?_⟩
  rw [exec_evRdresp_ok hf hp, if_neg (not_not_intro rfl), (payloadOk_iff d).2 hd, if_neg Bool.true_eq_false.mp,
    setRdFail_false, lwanHandoff_eq, List.append_assoc]
  rfl

/-- An answer to no transmit (R216). -/
theorem exec_evTxresp_unawaited (hf : s.fault = 0#8) (hl : s.phase ≠ .lwanTx) (hm : s.phase ≠ .meshTx) (ok : Bool) :
    exec (.evTxresp ok) s = raise .protocol s := by
  rw [exec, execEvTxresp, whenRunning_safe hf]
  cases hp : s.phase with
  | listenIdle | listenRead => rfl
  | lwanTx => exact absurd hp hl
  | meshTx => exact absurd hp hm

/-- Settles O35: each answer is one that its phase does not await, or a successful read that fails one of its checks. -/
theorem radioAnswerFaults : Obligations.RadioAnswerFaults := by
  refine ⟨fun ok d n r q s hf => ⟨fun hp => exec_evRdresp_unawaited hf hp ok d n r q, ?_, ?_⟩,
    fun ok s hf hl hm => exec_evTxresp_unawaited hf hl hm ok⟩
  · rintro hp rfl hn
    rw [exec_evRdresp_ok hf hp, if_pos hn]
    rfl
  · rintro hp rfl hn hd
    rw [exec_evRdresp_ok hf hp, if_neg (not_not_intro hn), if_pos ((payloadOk_eq_false_iff d).2 hd)]
    rfl

/-- The answer to the LoRaWAN transmit (R223). -/
theorem exec_evTxresp_lwanTx (hf : s.fault = 0#8) (hp : s.phase = .lwanTx) (ok : Bool) :
    exec (.evTxresp ok) s = .next (meshHandoff (s.setStatus (setLwTxFail s.status (!ok)))) := by
  rw [exec, execEvTxresp, whenRunning_safe hf, hp]

/-- Settles O36: the outcome is the model's, with the status write and the two emitted actions written out. -/
theorem lorawanTransmitAnswerHandsOffTheMeshPacket : Obligations.LorawanTransmitAnswerHandsOffTheMeshPacket := by
  refine ⟨decode_evTxresp, fun ok s hf hp => ?_⟩
  rw [exec_evTxresp_lwanTx hf hp, setLwTxFail_not, meshHandoff_eq, List.append_assoc]
  rfl

end Sys2Proof.Machine
end

section
/-! PROOF. Register access and reset (R227, R280 to R282). -/

namespace Sys2Proof.Machine

variable {s : State}

/-- `REG.READ` of an assigned number, by the four bytes of its register (R227). -/
theorem exec_regRead_assigned {n : Byte} {x : Word} {r : Bytes} (h : readReg s n = some x) (hr : le32 x = r) :
    exec (.regRead n) s = .next { s with result := some r } := by
  rw [exec, execRegRead, h, ← hr]
  rfl

/-- A number above 8 is not assigned (R227). -/
theorem readReg_unassigned {n : Byte} (hn : 8 < n.toNat) : readReg s n = none := by
  rw [← Option.not_isSome_iff_eq_none, readReg_isSome_iff]
  omega

/-- A register of at most 8 bits in four bytes (R227). -/
theorem le32_zeroExtend_of_le {w : Nat} (hw : w ≤ 8) (v : BitVec w) :
    le32 (v.zeroExtend 32) = [v.zeroExtend 8, 0, 0, 0] := by
  have hlow : (v.setWidth 32).extractLsb' 0 8 = v.setWidth 8 := by
    ext i hi
    simp [show i < 32 by omega]
  have hhigh : ∀ a, 8 ≤ a → a + 8 ≤ 32 → (v.setWidth 32).extractLsb' a 8 = 0 := fun a ha ha' => by
    rw [BitVec.extractLsb'_setWidth_of_le ha', extractLsb'_of_width_le v 8 (by omega)]
    rfl
  rw [le32, hlow, hhigh 8 le_rfl (by decide), hhigh 16 (by decide) (by decide), hhigh 24 (by decide) le_rfl]

/-- `REG.READ` of `PHASE` (R29, R227). -/
theorem exec_regRead_phase {r : Bytes} (hr : le32 (s.phase.code.zeroExtend 32) = r) :
    exec (.regRead 0x00) s = .next { s with result := some r } :=
  exec_regRead_assigned rfl hr

/-- Settles O38: each register's value, read as four bytes, is the one written out. -/
theorem regReadReturnsTheRegister : Obligations.RegReadReturnsTheRegister := by
  refine ⟨fun n o => decode_wordOf (code := 0x40) o (by decide) rfl rfl, fun s => ?_⟩
  have hrxPend : le32 (if s.rxPend then 1 else 0) = [if s.rxPend then 1 else 0, 0, 0, 0] := by
    cases s.rxPend with
    | false => rfl
    | true => rfl
  have hbyte : ∀ v : Byte, le32 (v.zeroExtend 32) = [v, 0, 0, 0] := fun v => by
    rw [le32_zeroExtend_of_le le_rfl, BitVec.zeroExtend, BitVec.setWidth_eq]
  exact ⟨fun hp => exec_regRead_phase (by rw [hp]; rfl), fun hp => exec_regRead_phase (by rw [hp]; rfl),
    fun hp => exec_regRead_phase (by rw [hp]; rfl), fun hp => exec_regRead_phase (by rw [hp]; rfl),
    exec_regRead_assigned rfl hrxPend, exec_regRead_assigned rfl rfl,
    exec_regRead_assigned rfl (le32_zeroExtend s.fcnt),
    exec_regRead_assigned rfl (le32_zeroExtend_of_le (by decide) s.chIdx),
    exec_regRead_assigned rfl (hbyte _), exec_regRead_assigned rfl (hbyte _), exec_regRead_assigned rfl rfl,
    exec_regRead_assigned rfl rfl⟩

/-- Settles O39: a channel of 0 to 7 is accepted, and the state is that of R281. -/
theorem resetSetsEveryRegister : Obligations.ResetSetsEveryRegister :=
  ⟨fun _ => rfl, fun _ _ _ _ hc => if_pos hc⟩

/-- Settles O40: neither value passes its check, so the instruction raises the fault where it has a step. -/
theorem unassignedOperandValuesFault : Obligations.UnassignedOperandValuesFault := by
  refine ⟨fun n s hn => ?_, fun p f c s hc => ?_⟩
  · rw [exec, execRegRead, readReg_unassigned hn]
    exact ⟨fun hf => whenRunning_safe hf _, fun hf => whenRunning_stuck hf _⟩
  · rw [exec, execEvReset, if_neg (by omega)]
    exact ⟨fun hf => whenRunning_safe hf _, fun hf => whenRunning_stuck hf _⟩

/-- Settles O41: the defaults give the reset state, whatever the state before. -/
theorem resetStateIsTheDefaultReset : Obligations.ResetStateIsTheDefaultReset :=
  ⟨fun _ => rfl, rfl, rfl, rfl, rfl, rfl, rfl⟩

end Sys2Proof.Machine
end

section
/-! PROOF. Faults: who can raise one, what it writes, and what a faulted core still does (R211, R251 to R253). -/

namespace Sys2Proof.Machine

variable {i : Instr} {s t : State}

/-- In a faulted core only reset and `REG.READ` have a step (R253). -/
theorem exec_faulted (hf : s.fault ≠ 0#8) (hr : isReset i = false) (hn : isRegRead i = false) : exec i s = .next s := by
  cases i with
  | evReset => cases hr
  | regRead => cases hn
  | evRxsig | evRdresp | evTxresp => exact whenRunning_stuck hf _
  | ctlDispatch => exact if_neg fun h => hf ((dispatchEnabled_iff s).1 h).1
  | _ => exact whenRunning_stuck hf _

/-- `CTL.DISPATCH` where one of its three conditions fails (R211, R220). -/
theorem exec_ctlDispatch_disabled (h : s.fault ≠ 0#8 ∨ s.phase ≠ .listenIdle ∨ s.rxPend = false) :
    exec .ctlDispatch s = .next s := by
  refine if_neg fun he => ?_
  obtain ⟨hf, hp, hr⟩ := (dispatchEnabled_iff s).1 he
  simp [hf, hp, hr] at h

/-- Settles O42: in a faulted core the guard of each instruction fails, and so does that of the internal step wherever it is
not enabled; with no turn to come, that step is the next. -/
theorem stepsWithNoTransitionLeaveTheCore : Obligations.StepsWithNoTransitionLeaveTheCore := by
  refine ⟨fun i s => exec_faulted, fun s h => ⟨exec_ctlDispatch_disabled h, fun ha => ?_⟩⟩
  rw [(stepRunsTheDecodedTurn s).2 ha]
  exact exec_ctlDispatch_disabled h

/-- A well-formed and dutiful instruction completes in a core without a fault (R251). -/
theorem exec_dutiful (hf : s.fault = 0#8) (hw : WellFormed i) (hd : dutiful s i) :
    ∃ t, exec i s = .next t ∧ t.fault = 0#8 := by
  cases i with
  | aesKeyexp k => exact ⟨_, (aesKeyexpReturnsTheSchedule.2 k s hf).1 ((keyOk_iff k).1 hw), hf⟩
  | aesEncrk sched p =>
    obtain ⟨hk, hp⟩ := Bool.and_eq_true_iff.1 hw
    exact ⟨_, exec_aesEncrk_completes hf ((scheduleOk_iff sched).1 hk) ((blockOk_iff p).1 hp), hf⟩
  | aesEnc k p =>
    obtain ⟨hk, hp⟩ := Bool.and_eq_true_iff.1 hw
    exact ⟨_, exec_aesEnc_completes hf ((keyOk_iff k).1 hk) ((blockOk_iff p).1 hp), hf⟩
  | ctrSimple k pid sid d => exact ⟨_, (ctrSimpleReturnsTheStream.2 k pid sid d s hf).1 ((keyOk_iff k).1 hw), hf⟩
  | ctrLwan dir k addr fc d =>
    have hblocks : d.length ≤ 4080 := (blocksOk_iff d).1 (decide_eq_true hd)
    exact ⟨_, (ctrLwanReturnsTheStream.2 dir k addr fc d s hf).1 ((keyOk_iff k).1 hw) hblocks, hf⟩
  | cmacSubkeys k => exact ⟨_, (cmacSubkeysReturnsBothSubkeys.2 k s hf).1 ((keyOk_iff k).1 hw), hf⟩
  | cmacTag k m => exact ⟨_, (cmacTagReturnsTheTag.2 k m s hf).1 ((keyOk_iff k).1 hw), hf⟩
  | pbEnc port p => exact ⟨_, pbEncReturnsTheMicroEncoding.2 port p s hf, hf⟩
  | lwBuild kn ka addr fc p =>
    obtain ⟨hn, ha⟩ := Bool.and_eq_true_iff.1 hw
    exact ⟨_, (lwBuildReturnsTheFrame.2 kn ka addr fc p s hf).1 ((keyOk_iff kn).1 hn) ((keyOk_iff ka).1 ha) hd, hf⟩
  | msBuild km sid pid p => exact ⟨_, exec_msBuild_completes hf ((keyOk_iff km).1 hw) hd, hf⟩
  | regRead n =>
    obtain ⟨x, hx⟩ := Option.isSome_iff_exists.1 ((readReg_isSome_iff s n).2 (of_decide_eq_true hw))
    exact ⟨_, exec_regRead_assigned hx rfl, hf⟩
  | evReset p f c => exact ⟨_, resetSetsEveryRegister.2 p f c s (of_decide_eq_true hw), rfl⟩
  | evRxsig => exact ⟨_, exec_evRxsig hf, hf⟩
  | evRdresp ok d n r q =>
    obtain ⟨hp, hmax⟩ := hd
    cases ok with
    | false => exact ⟨_, failedReadResumesListening.2 d n r q s hf hp, hf⟩
    | true =>
      obtain rfl : n = d.length := beq_iff_eq.1 hw
      exact ⟨_, acceptedReadHandsOffTheLorawanFrame.2 d r q s hf hp (hmax rfl), hf⟩
  | evTxresp ok =>
    rcases hd with hp | hp
    · exact ⟨_, lorawanTransmitAnswerHandsOffTheMeshPacket.2 ok s hf hp, hf⟩
    · exact ⟨_, meshTransmitAnswerResumesListening.2 ok s hf hp, hf⟩
  | ctlDispatch =>
    by_cases he : dispatchEnabled s = true
    · exact ⟨_, exec_ctlDispatch_enabled he, hf⟩
    · exact ⟨_, if_neg he, hf⟩

/-- The duties look at the phase alone, which taking the turn leaves as it is. -/
theorem dutiful_afterFetch (s : State) (i : Instr) : dutiful (afterFetch s) i = dutiful s i := by
  cases i <;> rfl

/-- Settles O43: the step runs the decoded instruction, which completes. -/
theorem dutifulInputsNeverFault : Obligations.DutifulInputsNeverFault := by
  intro s i hf hi hw hd
  rw [step_of_decodes hi]
  exact exec_dutiful (s := afterFetch s) hf hw (dutiful_afterFetch s i ▸ hd)

/-- Every effect but a recorded fault and a reset leaves `FAULT` as it is (R252). -/
theorem Effect.fault_cases (he : Effect i s t) :
    t.fault = s.fault ∨
    (s.fault = 0#8 ∧ ∃ c, t = { s with fault := FaultCode.code c, result := .none }) ∨
    (t.fault = 0#8 ∧ ∃ p f c, i = .evReset p f c ∧ c.toNat ≤ 7) := by
  cases he with
  | none | returned | signalled | dispatched => exact .inl rfl
  | readFailed | readAccepted | lwanSent | meshSent =>
    exact .inl (by simp [resumeListening_eq, lwanHandoff_eq, meshHandoff_eq])
  | faulted c hf => exact .inr (.inl ⟨hf, c, rfl⟩)
  | reset p f c hi hc => exact .inr (.inr ⟨rfl, p, f, c, hi, hc⟩)

/-- Settles O44: of the effects in a core without a fault, recording one alone leaves `FAULT` other than 0. -/
theorem faultsArePrecise : Obligations.FaultsArePrecise := by
  intro i s t hf h ht
  rcases (exec_cases h).fault_cases with hkeep | ⟨_, c, rfl⟩ | ⟨hzero, _⟩
  · exact absurd (hkeep.trans hf) ht
  · exact ⟨rfl, c.code_le_five⟩
  · exact absurd hzero ht

/-- In a faulted core an instruction leaves the core where it is but for its result, or resets it (R253). -/
theorem Effect.of_faulted (he : Effect i s t) (hf : s.fault ≠ 0#8) :
    t = { s with result := t.result } ∨ (t.fault = 0#8 ∧ ∃ p f c, i = .evReset p f c ∧ c.toNat ≤ 7) := by
  cases he with
  | none | returned => exact .inl rfl
  | reset p f c hi hc => exact .inr ⟨rfl, p, f, c, hi, hc⟩
  | faulted _ hs => exact absurd hs hf
  | signalled _ hs | dispatched _ hs | readFailed _ _ _ _ _ hs | readAccepted _ _ _ _ hs | lwanSent _ _ hs
    | meshSent _ _ hs =>
    exact absurd hs hf

/-- Settles O45: the effect of the decoded instruction in a faulted core, or the illegal word that has no step there. -/
theorem firstFaultIsKept : Obligations.FirstFaultIsKept := by
  intro s t hf h
  rcases step_cases h with ⟨i, hi, he⟩ | ⟨hs, _⟩ | ⟨_, rfl⟩
  · refine (he.of_faulted hf).imp id ?_
    rintro ⟨ht, p, f, c, rfl, hc⟩
    exact ⟨ht, p, f, c, hi, hc⟩
  · exact absurd hs hf
  · exact .inl rfl

end Sys2Proof.Machine
end

section
/-! PROOF. What the commands read and write (R60, R259). -/

namespace Sys2Proof.Machine

variable {i : Instr} {s t : State}

/-- Settles O46: a command's effect is a fault, a result or nothing, and it raises a fault where none is recorded. -/
theorem commandsWriteNoRegister : Obligations.CommandsWriteNoRegister := by
  intro i s t hc h
  cases exec_cases h with
  | none | returned => exact ⟨rfl, fun _ => rfl⟩
  | faulted c hf => exact ⟨rfl, fun hs => absurd hf hs⟩
  | signalled hi | dispatched hi | readFailed _ _ _ _ hi | readAccepted _ _ _ hi | lwanSent _ hi | meshSent _ hi
    | reset _ _ _ hi =>
    subst hi
    cases hc

/-- Two states that agree on `FAULT` and on the result channel agree on them after a command of one shape. -/
theorem command_congr {checks : List (Bool × FaultCode)} {r : Bytes} {s' t' : State} (hf : s.fault = s'.fault)
    (hr : s.fault ≠ 0#8 → s.result = s'.result) (h : command checks r s = .next t)
    (h' : command checks r s' = .next t') : t.result = t'.result ∧ t.fault = t'.fault := by
  by_cases hs : s.fault = 0#8
  · cases hc : firstFailure checks with
    | none =>
      rw [command_completes hs hc] at h
      rw [command_completes (hf ▸ hs) hc] at h'
      cases h
      cases h'
      exact ⟨rfl, hf⟩
    | some c =>
      rw [command_faults hs hc] at h
      rw [command_faults (hf ▸ hs) hc] at h'
      cases h
      cases h'
      exact ⟨rfl, rfl⟩
  · rw [command_stuck hs] at h
    rw [command_stuck (hf ▸ hs)] at h'
    cases h
    cases h'
    exact ⟨hr hs, hf⟩

/-- Settles O47: the command's checks and result are the same in both states. -/
theorem commandsAreFunctionsOfTheirOperands : Obligations.CommandsAreFunctionsOfTheirOperands := by
  intro i s s' t t' hc hr hs hs' h h'
  obtain ⟨checks, r, he⟩ := exec_command i hc hr
  rw [he] at h h'
  exact command_congr (hs.trans hs'.symm) (fun hf => absurd hs hf) h h'

/-- `REG.READ` of an unassigned number is a command whose check fails (R227). -/
theorem exec_regRead_unassigned {n : Byte} (h : readReg s n = none) :
    exec (.regRead n) s = command [(false, .badOperand)] [] s := by
  rw [exec, execRegRead, h]
  rfl

/-- Two states that read the same at a number agree on `FAULT` and on the result channel after reading it. -/
theorem exec_regRead_congr {n : Byte} {s' t' : State} (hx : readReg s' n = readReg s n) (hf : s.fault = s'.fault)
    (hr : s.fault ≠ 0#8 → s.result = s'.result) (h : exec (.regRead n) s = .next t)
    (h' : exec (.regRead n) s' = .next t') : t.result = t'.result ∧ t.fault = t'.fault := by
  cases hread : readReg s n with
  | none =>
    rw [exec_regRead_unassigned hread] at h
    rw [exec_regRead_unassigned (hx.trans hread)] at h'
    exact command_congr hf hr h h'
  | some x =>
    rw [exec_regRead_assigned hread rfl] at h
    rw [exec_regRead_assigned (hx.trans hread) rfl] at h'
    cases h
    cases h'
    exact ⟨rfl, hf⟩

/-- Settles O48: no check and no result of a command is read from the keys or from `RXBUF`, and `REG.READ` reads none of
them. -/
theorem commandsRevealNoKey : Obligations.CommandsRevealNoKey := by
  intro i s t t' a b c d hc h h'
  by_cases hr : isRegRead i = true
  · cases i with
    | regRead n => exact exec_regRead_congr (by rfl) (by rfl) (fun _ => by rfl) h h'
    | _ => cases hr
  · obtain ⟨checks, r, he⟩ := exec_command i hc (by simpa using hr)
    rw [he] at h h'
    exact command_congr (by rfl) (fun _ => by rfl) h h'

/-- A reset that leaves no fault has been accepted (R280). -/
theorem exec_evReset_provisioned {p : Word} {f : Half} {c : Byte} (h : exec (.evReset p f c) s = .next t)
    (ht : t.fault = 0#8) : t.Provisioned := by
  rcases execEvReset_cases (show execEvReset p f c s = _ from h) with ⟨_, rfl⟩ | ⟨_, _, rfl⟩ | ⟨_, hf, rfl⟩
  · exact ⟨rfl, rfl, rfl, rfl, rfl⟩
  · exact absurd ht (FaultCode.code_ne_zero .badOperand)
  · exact absurd ht hf

/-- Settles O49: reset is the one effect that writes the provisioning registers. -/
theorem provisioningIsWrittenByResetAlone : Obligations.ProvisioningIsWrittenByResetAlone := by
  refine fun i s t h => ⟨fun hr => ?_, fun hr ht => ?_⟩
  · exact (exec_cases h).provisioning_cases.resolve_left fun ⟨hr', _⟩ => Bool.false_ne_true (hr.symm.trans hr')
  · cases i with
    | evReset p f c => exact exec_evReset_provisioned h ht
    | _ => cases hr

end Sys2Proof.Machine
end

section
/-! PROOF. The phases, the notification and the trace follow the transition table (R210, R214, R219). -/

namespace Sys2Proof.Machine

variable {i : Instr} {s t : State}

/-- Settles O51: the effects that change the phase are the five transitions and reset. -/
theorem phasesFollowTheTransitionTable : Obligations.PhasesFollowTheTransitionTable := by
  intro i s t h
  cases exec_cases h with
  | none | faulted | returned | signalled => exact .inl rfl
  | dispatched hi hf hp hr => exact .inr (.inl ⟨hi, hf, hr, hp, rfl⟩)
  | readFailed d n r q hi hf hp => exact .inr (.inr (.inl ⟨d, n, r, q, hi, hf, hp, rfl⟩))
  | readAccepted d r q hi hf hp => exact .inr (.inr (.inr (.inl ⟨d, _, r, q, hi, hf, hp, rfl⟩)))
  | lwanSent ok hi hf hp => exact .inr (.inr (.inr (.inr (.inl ⟨ok, hi, hf, hp, rfl⟩))))
  | meshSent ok hi hf hp => exact .inr (.inr (.inr (.inr (.inr (.inl ⟨ok, hi, hf, hp, rfl⟩)))))
  | reset p f c hi =>
    subst hi
    exact .inr (.inr (.inr (.inr (.inr (.inr ⟨rfl, rfl⟩)))))

/-- Who writes the notification (R218 to R220, R281). -/
theorem Effect.rxPend_cases (he : Effect i s t) :
    t.rxPend = s.rxPend ∨ (i = .evRxsig ∧ t.rxPend = true) ∨
    (t.rxPend = false ∧ (isReset i = true ∨
      (i = .ctlDispatch ∧ s.phase = .listenIdle ∧ t.phase = .listenRead ∧ t.trace = s.trace ++ [.read]))) := by
  cases he with
  | none | faulted | returned => exact .inl rfl
  | readFailed | readAccepted | lwanSent | meshSent =>
    exact .inl (by simp [resumeListening_eq, lwanHandoff_eq, meshHandoff_eq])
  | signalled hi => exact .inr (.inl ⟨hi, rfl⟩)
  | dispatched hi _ hp => exact .inr (.inr ⟨rfl, .inr ⟨hi, hp, rfl, rfl⟩⟩)
  | reset p f c hi =>
    subst hi
    exact .inr (.inr ⟨rfl, .inl rfl⟩)

/-- Settles O53: the signal is the one effect that sets the notification, the read and reset the two that clear it. -/
theorem notificationIsConsumedByDispatchAlone : Obligations.NotificationIsConsumedByDispatchAlone := by
  intro i s t h
  refine ⟨fun hs ht => ?_, fun hs ht => ?_⟩
  · rcases (exec_cases h).rxPend_cases with hkeep | ⟨hi, _⟩ | ⟨hclear, _⟩
    · exact absurd ((hkeep.symm.trans ht).symm.trans hs) (by decide)
    · exact hi
    · exact absurd (ht.symm.trans hclear) (by decide)
  · rcases (exec_cases h).rxPend_cases with hkeep | ⟨_, hset⟩ | ⟨_, hwho⟩
    · exact absurd ((hkeep.symm.trans ht).symm.trans hs) (by decide)
    · exact absurd (hset.symm.trans ht) (by decide)
    · exact hwho

/-- Settles O54: each effect outside reset appends the actions of its transition, or none. -/
theorem traceGrowsByTheActionsOfATransition : Obligations.TraceGrowsByTheActionsOfATransition := by
  intro i s t hr h
  cases exec_cases h with
  | none | faulted | returned | signalled => exact ⟨[], (List.append_nil _).symm, .inl rfl⟩
  | dispatched => exact ⟨_, rfl, .inr (.inl rfl)⟩
  | readFailed | meshSent => exact ⟨_, List.append_assoc _ _ _, .inr (.inr (.inl rfl))⟩
  | readAccepted => exact ⟨_, List.append_assoc _ _ _, .inr (.inr (.inr (.inl ⟨_, rfl⟩)))⟩
  | lwanSent => exact ⟨_, List.append_assoc _ _ _, .inr (.inr (.inr (.inr ⟨_, rfl⟩)))⟩
  | reset p f c hi =>
    subst hi
    cases hr

end Sys2Proof.Machine
end

section
/-! PROOF. No instruction acts on `STATUS` (R35). -/

namespace Sys2Proof.Machine

variable {s : State} {x : Byte}

/-- The second outcome is the first but for `STATUS`. -/
def SameButStatus (o o' : Outcome) : Prop := ∀ t, o = .next t → ∃ y, o' = .next (t.setStatus y)

theorem sameButStatus_next {t t' : State} (y : Byte) (h : t' = t.setStatus y) : SameButStatus (.next t) (.next t') := by
  intro u hu
  cases hu
  exact ⟨y, congrArg _ h⟩

theorem sameButStatus_raise (c : FaultCode) : SameButStatus (raise c s) (raise c (s.setStatus x)) :=
  sameButStatus_next x rfl

theorem SameButStatus.ite {p : Prop} [Decidable p] {a a' b b' : Outcome} (ha : SameButStatus a a')
    (hb : SameButStatus b b') : SameButStatus (if p then a else b) (if p then a' else b') := by
  split
  · exact ha
  · exact hb

theorem SameButStatus.whenRunning {k k' : Outcome} (hk : SameButStatus k k') :
    SameButStatus (whenRunning s k) (whenRunning (s.setStatus x) k') :=
  hk.ite (sameButStatus_next x rfl)

theorem sameButStatus_command (checks : List (Bool × FaultCode)) (r : Bytes) :
    SameButStatus (command checks r s) (command checks r (s.setStatus x)) := by
  refine SameButStatus.whenRunning ?_
  cases firstFailure checks with
  | none => exact sameButStatus_next x rfl
  | some c => exact sameButStatus_raise c

theorem sameButStatus_exec_command {i : Instr} (hc : isCommand i = true) (hr : isRegRead i = false) :
    SameButStatus (exec i s) (exec i (s.setStatus x)) := by
  obtain ⟨checks, r, he⟩ := exec_command i hc hr
  rw [he, he]
  exact sameButStatus_command checks r

theorem sameButStatus_evRdresp (ok : Bool) (d : Bytes) (n r q : Nat) :
    SameButStatus (execEvRdresp ok d n r q s) (execEvRdresp ok d n r q (s.setStatus x)) := by
  refine SameButStatus.whenRunning (.ite (sameButStatus_raise _) (.ite ?failed
    (.ite (sameButStatus_raise _) (.ite (sameButStatus_raise _) ?accepted))))
  case failed => exact sameButStatus_next (setRdFail x true) rfl
  case accepted => exact sameButStatus_next (setRdFail x false) rfl

theorem sameButStatus_evTxresp (ok : Bool) :
    SameButStatus (execEvTxresp ok s) (execEvTxresp ok (s.setStatus x)) := by
  refine SameButStatus.whenRunning ?_
  rw [State.setStatus_phase]
  cases s.phase with
  | listenIdle | listenRead => exact sameButStatus_raise _
  | lwanTx => exact sameButStatus_next (setLwTxFail x (!ok)) rfl
  | meshTx => exact sameButStatus_next (setMsTxFail x (!ok)) rfl

/-- Settles O55: no check and no transition of an instruction reads `STATUS`, and what is written to it reads it alone. -/
theorem statusIsNeverActedOn : Obligations.StatusIsNeverActedOn := by
  intro i s t x hr h
  suffices hsame : SameButStatus (exec i s) (exec i (s.setStatus x)) from hsame t h
  cases i with
  | regRead => cases hr
  | evReset p f c => exact .ite (sameButStatus_next 0 rfl) (.whenRunning (sameButStatus_raise _))
  | evRxsig => exact .whenRunning (sameButStatus_next x rfl)
  | evRdresp ok d n r q => exact sameButStatus_evRdresp ok d n r q
  | evTxresp ok => exact sameButStatus_evTxresp ok
  | ctlDispatch => exact .ite (sameButStatus_next x rfl) (sameButStatus_next x rfl)
  | _ => exact sameButStatus_exec_command rfl hr

end Sys2Proof.Machine
end

section
/-! PROOF. The cycles of R229, from one cycle boundary to the next. -/

namespace Sys2Proof.Machine

/-- The signal and the dispatch that begin a cycle. -/
theorem cycle_begins {s : State} (hs : s.AtCycleBoundary) :
    exec .evRxsig s = .next { s with rxPend := true } ∧
    exec .ctlDispatch { s with rxPend := true } =
      .next { s with rxPend := false, trace := s.trace ++ [.read], phase := .listenRead } := by
  obtain ⟨hf, hp, _⟩ := hs
  exact ⟨rxsigLatchesTheNotification.2 s hf |>.1, dispatchStartsTheRead.2 { s with rxPend := true } hf hp rfl⟩

/-- Settles O56: each step is the one its statement gives, and the five chain. -/
theorem acceptedCycleGainsSevenActions : Obligations.AcceptedCycleGainsSevenActions := by
  intro s data rssi snr ok1 ok2 hs hd
  obtain ⟨hsig, hdis⟩ := cycle_begins hs
  obtain ⟨hf, _, _⟩ := hs
  refine ⟨_, _, _, _, _, hsig, hdis, acceptedReadHandsOffTheLorawanFrame.2 data rssi snr _ hf rfl hd,
    lorawanTransmitAnswerHandsOffTheMeshPacket.2 ok1 _ hf rfl, meshTransmitAnswerResumesListening.2 ok2 _ hf rfl,
    ⟨hf, rfl, rfl⟩, rfl, rfl, rfl, rfl, ?_⟩
  simp only [List.append_assoc, List.cons_append, List.nil_append]

/-- Settles O57: as O56, with the failed read after the dispatch. -/
theorem failedReadCycleConsumesNoCounter : Obligations.FailedReadCycleConsumesNoCounter := by
  intro s data n rssi snr hs
  obtain ⟨hsig, hdis⟩ := cycle_begins hs
  obtain ⟨hf, _, _⟩ := hs
  exact ⟨_, _, _, hsig, hdis, failedReadResumesListening.2 data n rssi snr _ hf rfl, ⟨hf, rfl, rfl⟩, rfl, rfl, rfl,
    List.append_assoc _ _ _⟩

end Sys2Proof.Machine
end

section
/-! PROOF. The S-box is a permutation, built from inversion in GF(2⁸) and an affine map (R111 to R113, R127). -/

namespace Sys2Proof.Machine

/-- The affine map of R111. -/
def sboxAffine (y : Byte) : Byte :=
  y ^^^ y.rotateLeft 1 ^^^ y.rotateLeft 2 ^^^ y.rotateLeft 3 ^^^ y.rotateLeft 4 ^^^ 0x63

/-- The inverse of the affine map of R111. -/
def sboxAffineInverse (z : Byte) : Byte := z.rotateLeft 1 ^^^ z.rotateLeft 3 ^^^ z.rotateLeft 6 ^^^ 0x05

theorem sboxAffine_sboxAffineInverse : ∀ z : Byte, sboxAffine (sboxAffineInverse z) = z := by decide +kernel

/-- What the S-box maps affinely: the inverse in GF(2⁸) (R111). -/
def gfInverse (x : Byte) : Byte := sboxAffineInverse (sbox x)

theorem gfMul_gfInverse : ∀ x : Byte, if x = 0x00 then gfInverse x = 0x00 else gfMul x (gfInverse x) = 0x01 := by
  decide +kernel

theorem sbox_eq_sboxAffine (x : Byte) : sbox x = sboxAffine (gfInverse x) := (sboxAffine_sboxAffineInverse _).symm

theorem gfInverse_gfInverse : ∀ x : Byte, gfInverse (gfInverse x) = x := by decide +kernel

/-- The S-box maps no two bytes to one: inversion undoes itself (R127). -/
theorem sbox_injective : Function.Injective sbox := fun x y h => by
  have hinv : gfInverse x = gfInverse y := congrArg sboxAffineInverse h
  rw [← gfInverse_gfInverse x, hinv, gfInverse_gfInverse]

theorem xtime_toNat : ∀ b : Byte, (xtime b).toNat = if b.toNat < 128 then 2 * b.toNat else (2 * b.toNat) ^^^ 0x11B := by
  decide +kernel

/-- Settles O11: the inverse of R111 is read off the S-box through the affine map, and multiplies to 1. -/
theorem sboxIsAPermutation : Obligations.SboxIsAPermutation := by
  refine ⟨xtime_toNat, rfl, fun j hj hj' => ?_, fun x => ⟨gfInverse x, gfMul_gfInverse x, sbox_eq_sboxAffine x⟩,
    sbox_injective⟩
  interval_cases j <;> rfl

end Sys2Proof.Machine
end

section
/-! PROOF. The key schedule follows the recurrence of R120, byte by byte. -/

namespace Sys2Proof.Machine

/-- Two byte strings of one length with the same bytes are equal. -/
theorem bytes_ext {a b : Bytes} (hlen : a.length = b.length) (h : ∀ i, i < a.length → a.getD i 0 = b.getD i 0) :
    a = b := by
  refine List.ext_getElem hlen fun i ha hb => ?_
  have hi := h i ha
  rwa [List.getD_eq_getElem _ _ ha, List.getD_eq_getElem _ _ hb] at hi

/-- A byte of the joined words of 4 bytes lies in the word it is counted into. -/
theorem getD_flatten_words {ws : List Bytes} (h : ∀ w ∈ ws, w.length = 4) {j b : Nat} (hj : j < ws.length) (hb : b < 4) :
    ws.flatten.getD (4 * j + b) 0 = (ws.getD j []).getD b 0 := by
  induction ws generalizing j with
  | nil => cases hj
  | cons w ws ih =>
    have hw : w.length = 4 := h w List.mem_cons_self
    rw [List.flatten_cons]
    cases j with
    | zero =>
      rw [Nat.mul_zero, Nat.zero_add]
      exact List.getD_append _ _ _ _ (by omega)
    | succ j =>
      rw [List.getD_append_right _ _ _ _ (by omega), hw, show 4 * (j + 1) + b - 4 = 4 * j + b by omega]
      exact ih (fun v hv => h v (List.mem_cons_of_mem _ hv)) (Nat.lt_of_succ_lt_succ hj)

/-- The loop of the key expansion leaves the words it began with as they are (R120). -/
theorem getD_expandLoop_of_lt (n : Nat) {ws : List Bytes} {j i : Nat} (hi : i < ws.length) :
    ((List.range' j n).foldl expandWord ws).getD i [] = ws.getD i [] := by
  induction n generalizing ws j with
  | zero => rfl
  | succ n ih =>
    rw [List.range'_succ, List.foldl_cons, ih (by rw [expandWord, List.length_append]; omega), expandWord,
      List.getD_append _ _ _ _ hi]

/-- Each word that the loop of the key expansion appends follows the recurrence (R120). -/
theorem getD_expandLoop (n : Nat) {ws : List Bytes} {j i : Nat} (hlen : ws.length = j) (hj : 4 ≤ j) (hi : j ≤ i)
    (hi' : i < j + n) :
    ((List.range' j n).foldl expandWord ws).getD i [] =
      xorBytes (((List.range' j n).foldl expandWord ws).getD (i - 4) [])
        (keyStep (((List.range' j n).foldl expandWord ws).getD (i - 1) []) i) := by
  induction n generalizing ws j with
  | zero => omega
  | succ n ih =>
    rw [List.range'_succ, List.foldl_cons]
    have hlen' : (expandWord ws j).length = j + 1 := by rw [expandWord, List.length_append, hlen, List.length_singleton]
    rcases Nat.eq_or_lt_of_le hi with rfl | hlt
    · rw [getD_expandLoop_of_lt n (by omega), getD_expandLoop_of_lt n (by omega), getD_expandLoop_of_lt n (by omega),
        expandWord, List.getD_append_right _ _ _ _ hlen.le, List.getD_append _ _ _ _ (by omega),
        List.getD_append _ _ _ _ (by omega), hlen, Nat.sub_self]
      rfl
    · exact ih hlen' (by omega) hlt (by omega)

/-- What a word is XORed with, byte by byte: RotWord takes the next byte, and the round constant meets byte 0 (R118). -/
theorem getD_keyStep {w : Bytes} (hw : w.length = 4) (j : Nat) {b : Nat} (hb : b < 4) :
    (keyStep w j).getD b 0 =
      if j % 4 = 0 then sbox (w.getD ((b + 1) % 4) 0) ^^^ (if b = 0 then rcon (j / 4) else 0x00) else w.getD b 0 := by
  unfold keyStep
  split
  · match w, hw with
    | [w0, w1, w2, w3], _ => interval_cases b <;> rfl
  · rfl

theorem length_keyStep {w : Bytes} (hw : w.length = 4) (j : Nat) : (keyStep w j).length = 4 := by
  unfold keyStep
  split
  · simp [subWord, rotWord, hw]
  · exact hw

section Schedule

variable {k : Bytes} (hk : k.length = 16)

include hk

theorem length_getD_keyWords {j : Nat} (hj : j < 44) : ((keyWords k).getD j []).length = 4 := by
  obtain ⟨hlen, hwords⟩ := keyWords_shape hk
  rw [List.getD_eq_getElem _ _ (by omega)]
  exact hwords _ (List.getElem_mem _)

/-- A byte of the schedule by its word (R81). -/
theorem getD_keyExpand {j b : Nat} (hj : j < 44) (hb : b < 4) :
    (keyExpand k).getD (4 * j + b) 0 = ((keyWords k).getD j []).getD b 0 := by
  obtain ⟨hlen, hwords⟩ := keyWords_shape hk
  exact getD_flatten_words hwords (by omega) hb

/-- The schedule begins with the key (R120). -/
theorem take_keyExpand : (keyExpand k).take 16 = k := by
  have hlen : ((keyExpand k).take 16).length = k.length := by rw [List.length_take, length_keyExpand hk, hk]; rfl
  refine bytes_ext hlen fun i hi => ?_
  rw [hlen, hk] at hi
  have hword : (keyWords k).getD (i / 4) [] = slice k (4 * (i / 4)) 4 := by
    rw [keyWords, getD_expandLoop_of_lt 40 (by simp; omega), List.getD_eq_getElem _ _ (by simp; omega)]
    simp
  rw [List.getD_eq_getElem?_getD, List.getElem?_take, if_pos hi, ← List.getD_eq_getElem?_getD, ← Nat.div_add_mod i 4,
    getD_keyExpand hk (by omega) (by omega), Nat.div_add_mod, hword, getD_slice (by omega), Nat.div_add_mod]

/-- Each later word of the schedule, byte by byte (R120). -/
theorem getD_keyExpand_recurrence {j b : Nat} (hj : 4 ≤ j) (hj' : j < 44) (hb : b < 4) :
    (keyExpand k).getD (4 * j + b) 0 =
      (keyExpand k).getD (4 * (j - 4) + b) 0 ^^^
        (if j % 4 = 0 then
          sbox ((keyExpand k).getD (4 * (j - 1) + (b + 1) % 4) 0) ^^^ (if b = 0 then rcon (j / 4) else 0x00)
        else (keyExpand k).getD (4 * (j - 1) + b) 0) := by
  have hprev := length_getD_keyWords hk (j := j - 1) (by omega)
  have hfour := length_getD_keyWords hk (j := j - 4) (by omega)
  have hword : (keyWords k).getD j [] =
      xorBytes ((keyWords k).getD (j - 4) []) (keyStep ((keyWords k).getD (j - 1) []) j) :=
    getD_expandLoop 40 (by simp) le_rfl hj hj'
  rw [getD_keyExpand hk hj' hb, hword, getD_xorBytes (by omega) (by rw [length_keyStep hprev]; exact hb),
    getD_keyStep hprev j hb, getD_keyExpand hk (by omega) hb, getD_keyExpand hk (by omega) (Nat.mod_lt _ (by decide)),
    getD_keyExpand hk (by omega) hb]

end Schedule

/-- Settles O10: the loop keeps the first four words and appends the others by the recurrence. -/
theorem keyExpansionFollowsTheRecurrence : Obligations.KeyExpansionFollowsTheRecurrence :=
  fun _ hk => ⟨length_keyExpand hk, take_keyExpand hk, fun _ _ hj hj' hb => getD_keyExpand_recurrence hk hj hj' hb⟩

end Sys2Proof.Machine
end

section
/-! PROOF. The ten rounds of `EncryptBlock`, byte by byte (R114 to R117, R121, R124). -/

namespace Sys2Proof.Machine

/-- The cipher's state after AddRoundKey(0) and n full rounds (R121). -/
def roundState (sched p : Bytes) : Nat → Bytes
  | 0 => addRoundKey sched 0 p
  | n + 1 => fullRound sched (roundState sched p n) (n + 1)

/-- `EncryptBlock` is nine full rounds and the last (R121). -/
theorem encryptBlock_eq (sched p : Bytes) :
    encryptBlock sched p = addRoundKey sched 10 (shiftRows (subBytes (roundState sched p 9))) := rfl

/-- The cipher's state after each of the ten rounds (R121). -/
def cipherState (sched p : Bytes) (n : Nat) : Bytes := if n ≤ 9 then roundState sched p n else encryptBlock sched p

/-- The nine full rounds from one cipher state to the next (R121). -/
theorem cipherState_of_round (sched p : Bytes) {n : Nat} (hn : 1 ≤ n) (hn' : n ≤ 9) :
    cipherState sched p n = fullRound sched (cipherState sched p (n - 1)) n := by
  obtain ⟨m, rfl⟩ := Nat.exists_eq_add_of_le' hn
  rw [cipherState, if_pos hn', Nat.add_sub_cancel, cipherState, if_pos (by omega)]
  rfl

/-- SubBytes and ShiftRows, row r and column c (R114, R115). -/
theorem getD_shiftRows_subBytes {s : Bytes} (hs : s.length = 16) {r c : Nat} (hr : r < 4) (hc : c < 4) :
    (shiftRows (subBytes s)).getD (r + 4 * c) 0 = sbox (s.getD (r + 4 * ((c + r) % 4)) 0) := by
  rw [getD_shiftRows _ hr hc, getD_subBytes (by omega)]

section Rounds

variable {sched : Bytes} (hk : sched.length = 176)

include hk

theorem length_roundState {p : Bytes} (hp : p.length = 16) {n : Nat} (hn : n ≤ 9) :
    (roundState sched p n).length = 16 := by
  cases n with
  | zero => exact length_addRoundKey hk (by decide) hp
  | succ n => exact length_fullRound hk (by omega) _

theorem length_cipherState {p : Bytes} (hp : p.length = 16) (n : Nat) : (cipherState sched p n).length = 16 := by
  unfold cipherState
  split
  · exact length_roundState hk hp ‹_›
  · exact length_encryptBlock hk p

/-- A full round, row r of column c (R121). -/
theorem getD_fullRound {s : Bytes} (hs : s.length = 16) {n : Nat} (hn : n ≤ 10) {c : Nat} (hc : c < 4) {a : Nat → Byte}
    (ha : ∀ r, r < 4 → a r = sbox (s.getD (r + 4 * ((c + r) % 4)) 0)) {r : Nat} (hr : r < 4) :
    (fullRound sched s n).getD (4 * c + r) 0 =
      (mixColumn (a 0) (a 1) (a 2) (a 3)).getD r 0 ^^^ sched.getD (16 * n + 4 * c + r) 0 := by
  have hbyte : ∀ r, r < 4 → byteAt (shiftRows (subBytes s)) (4 * c + r) = a r := fun r hr => by
    rw [byteAt, Nat.add_comm, getD_shiftRows_subBytes hs hr hc, ha r hr]
  rw [fullRound, getD_addRoundKey hk hn (length_mixColumns _) (by omega), getD_mixColumns _ hr hc,
    show byteAt (shiftRows (subBytes s)) (4 * c) = a 0 from hbyte 0 (by decide), hbyte 1 (by decide),
    hbyte 2 (by decide), hbyte 3 (by decide), ← Nat.add_assoc]

/-- The last round, row r of column c (R121). -/
theorem getD_encryptBlock {p : Bytes} (hp : p.length = 16) {r c : Nat} (hr : r < 4) (hc : c < 4) :
    (encryptBlock sched p).getD (r + 4 * c) 0 =
      sbox ((roundState sched p 9).getD (r + 4 * ((c + r) % 4)) 0) ^^^ sched.getD (160 + r + 4 * c) 0 := by
  rw [encryptBlock_eq, getD_addRoundKey hk le_rfl (length_shiftRows _) (by omega),
    getD_shiftRows_subBytes (length_roundState hk hp le_rfl) hr hc, Nat.add_assoc 160]

end Rounds

/-- Settles O8: the two length checks, and the cipher's state after each round. -/
theorem aesEncrkReturnsTheCiphertext : Obligations.AesEncrkReturnsTheCiphertext := by
  refine ⟨fun _ => rfl, fun sched p s hf => ⟨exec_aesEncrk_completes hf, exec_aesEncrk_faults hf⟩,
    fun sched p hk hp => ?_⟩
  refine ⟨cipherState sched p, fun n _ => length_cipherState hk hp n, rfl, fun i hi => ?first,
    fun n c hn hn' hc a ha => ?full, fun r c hr hc => getD_encryptBlock hk hp hr hc⟩
  case first =>
    have h := getD_addRoundKey hk (n := 0) (by decide) hp hi
    rwa [Nat.mul_zero, Nat.zero_add] at h
  case full =>
    rw [cipherState_of_round sched p hn hn']
    have hbyte := fun r hr => getD_fullRound hk (length_cipherState hk hp _) (by omega : n ≤ 10) hc ha (r := r) hr
    exact ⟨hbyte 0 (by decide), hbyte 1 (by decide), hbyte 2 (by decide), hbyte 3 (by decide)⟩

end Sys2Proof.Machine
end

section
/-! PROOF. `EncryptBlock` is injective under every schedule, layer by layer (R127). -/

namespace Sys2Proof.Machine

/-- AddRoundKey(n) is its own inverse (R117). -/
theorem addRoundKey_injective {sched : Bytes} (hk : sched.length = 176) {n : Nat} (hn : n ≤ 10) {s t : Bytes}
    (hs : s.length = 16) (ht : t.length = 16) (h : addRoundKey sched n s = addRoundKey sched n t) : s = t := by
  have hkey : (slice sched (16 * n) 16).length = 16 := by rw [length_slice]; omega
  rw [← xorBytes_twice s (slice sched (16 * n) 16) (by omega), ← xorBytes_twice t (slice sched (16 * n) 16) (by omega)]
  exact congrArg (xorBytes · _) h

/-- SubBytes maps no two states to one: the S-box maps no two bytes to one (R114). -/
theorem subBytes_injective : Function.Injective subBytes := List.map_injective_iff.2 sbox_injective

/-- ShiftRows maps no two blocks to one: byte r + 4c comes to column c - r (R115). -/
theorem shiftRows_injective {s t : Bytes} (hs : s.length = 16) (ht : t.length = 16) (h : shiftRows s = shiftRows t) :
    s = t := by
  refine bytes_ext (hs.trans ht.symm) fun i hi => ?_
  have hfrom : ∀ u : Bytes, (shiftRows u).getD (i % 4 + 4 * ((i / 4 + 4 - i % 4) % 4)) 0 = u.getD i 0 := fun u => by
    rw [getD_shiftRows u (by omega) (by omega)]
    congr 1
    omega
  rw [← hfrom s, h, hfrom t]

theorem xor_left_comm (a b c : Byte) : a ^^^ (b ^^^ c) = b ^^^ (a ^^^ c) := by
  rw [← BitVec.xor_assoc, BitVec.xor_comm a b, BitVec.xor_assoc]

/-- What `xtime` XORs for a top bit, of the sum of two bits (R113). -/
theorem xtimeReduction_xor (p q : Bool) :
    (if (p ^^ q) then 0x1b else 0x00 : Byte) = (if p then 0x1b else 0x00) ^^^ (if q then 0x1b else 0x00) := by
  cases p <;> cases q <;> rfl

/-- `xtime` is linear (R113). -/
theorem xtime_xor (a b : Byte) : xtime (a ^^^ b) = xtime a ^^^ xtime b := by
  rw [xtime, xtime, xtime, BitVec.getLsbD_xor, xtimeReduction_xor, BitVec.shiftLeft_xor_distrib, BitVec.xor_assoc,
    BitVec.xor_assoc, xor_left_comm (b <<< 1)]

/-- A byte of a mixed column, a the byte in its row and b to d the next ones: itself, the column's sum, and the double of its
sum with the next byte (R116). -/
def mixByte (a b c d : Byte) : Byte := a ^^^ (a ^^^ b ^^^ c ^^^ d) ^^^ xtime (a ^^^ b)

theorem mixColumn_eq (a b c d : Byte) :
    mixColumn a b c d = [mixByte a b c d, mixByte b c d a, mixByte c d a b, mixByte d a b c] := by
  simp [mixColumn, mixByte, xtime_xor, BitVec.xor_assoc, BitVec.xor_comm, xor_left_comm]

/-- The byte in the row of y0 before the mixing: the mixing keeps the column's sum s, which gives the sum of every second
byte, then that of the two neighbours, then the byte (R116). -/
def unmixByte (y0 y1 y2 y3 : Byte) : Byte :=
  y0 ^^^ (y0 ^^^ y1 ^^^ y2 ^^^ y3) ^^^ xtime (y0 ^^^ y1 ^^^ xtime (y0 ^^^ y2 ^^^ xtime (y0 ^^^ y1 ^^^ y2 ^^^ y3)))

theorem unmixByte_mixByte (a b c d : Byte) :
    unmixByte (mixByte a b c d) (mixByte b c d a) (mixByte c d a b) (mixByte d a b c) = a := by
  have hsum : mixByte a b c d ^^^ mixByte b c d a ^^^ mixByte c d a b ^^^ mixByte d a b c = a ^^^ b ^^^ c ^^^ d := by
    simp [mixByte, xtime_xor, BitVec.xor_assoc, BitVec.xor_comm, xor_left_comm]
  have hsecond : mixByte a b c d ^^^ mixByte c d a b ^^^ xtime (a ^^^ b ^^^ c ^^^ d) = a ^^^ c := by
    simp [mixByte, xtime_xor, BitVec.xor_assoc, BitVec.xor_comm, xor_left_comm]
  have hnext : mixByte a b c d ^^^ mixByte b c d a ^^^ xtime (a ^^^ c) = a ^^^ b := by
    simp [mixByte, xtime_xor, BitVec.xor_assoc, BitVec.xor_comm, xor_left_comm]
  rw [unmixByte, hsum, hsecond, hnext, mixByte, BitVec.xor_assoc, BitVec.xor_comm (a ^^^ b ^^^ c ^^^ d), BitVec.xor_assoc,
    BitVec.xor_assoc]
  simp

/-- A byte of MixColumns by the bytes of its column, from its own row on (R116). -/
theorem getD_mixColumns_eq_mixByte (s : Bytes) {r c : Nat} (hr : r < 4) (hc : c < 4) :
    (mixColumns s).getD (4 * c + r) 0 = mixByte (byteAt s (4 * c + r)) (byteAt s (4 * c + (r + 1) % 4))
      (byteAt s (4 * c + (r + 2) % 4)) (byteAt s (4 * c + (r + 3) % 4)) := by
  rw [getD_mixColumns s hr hc, mixColumn_eq]
  interval_cases r <;> rfl

/-- MixColumns can be undone, byte by byte (R116). -/
theorem getD_of_mixColumns (s : Bytes) {r c : Nat} (hr : r < 4) (hc : c < 4) :
    s.getD (4 * c + r) 0 = unmixByte ((mixColumns s).getD (4 * c + r) 0) ((mixColumns s).getD (4 * c + (r + 1) % 4) 0)
      ((mixColumns s).getD (4 * c + (r + 2) % 4) 0) ((mixColumns s).getD (4 * c + (r + 3) % 4) 0) := by
  have hmod : ∀ n, n % 4 < 4 := fun n => Nat.mod_lt n (by decide)
  rw [getD_mixColumns_eq_mixByte s hr hc, getD_mixColumns_eq_mixByte s (hmod _) hc,
    getD_mixColumns_eq_mixByte s (hmod _) hc, getD_mixColumns_eq_mixByte s (hmod _) hc]
  interval_cases r <;> exact (unmixByte_mixByte _ _ _ _).symm

/-- MixColumns maps no two blocks to one (R116). -/
theorem mixColumns_injective {s t : Bytes} (hs : s.length = 16) (ht : t.length = 16) (h : mixColumns s = mixColumns t) :
    s = t := by
  refine bytes_ext (hs.trans ht.symm) fun i hi => ?_
  rw [← Nat.div_add_mod i 4, getD_of_mixColumns s (by omega) (by omega), h,
    ← getD_of_mixColumns t (by omega) (by omega)]

/-- A full round maps no two blocks to one (R121). -/
theorem fullRound_injective {sched : Bytes} (hk : sched.length = 176) {n : Nat} (hn : n ≤ 10) {s t : Bytes}
    (hs : s.length = 16) (ht : t.length = 16) (h : fullRound sched s n = fullRound sched t n) : s = t := by
  have hmix := addRoundKey_injective hk hn (length_mixColumns _) (length_mixColumns _) h
  have hshift := mixColumns_injective (length_shiftRows _) (length_shiftRows _) hmix
  exact subBytes_injective (shiftRows_injective (by simpa using hs) (by simpa using ht) hshift)

/-- Two blocks with the same cipher state after a full round are equal (R121). -/
theorem roundState_injective {sched : Bytes} (hk : sched.length = 176) {n : Nat} (hn : n ≤ 9) {p q : Bytes}
    (hp : p.length = 16) (hq : q.length = 16) (h : roundState sched p n = roundState sched q n) : p = q := by
  induction n with
  | zero => exact addRoundKey_injective hk (by decide) hp hq h
  | succ n ih =>
    have hlen := fun {p : Bytes} (hp : p.length = 16) => length_roundState hk hp (Nat.le_of_succ_le hn)
    exact ih (Nat.le_of_succ_le hn) (fullRound_injective hk (by omega) (hlen hp) (hlen hq) h)

/-- Settles O12: each layer of each round is injective on blocks. -/
theorem encryptBlockIsInjective : Obligations.EncryptBlockIsInjective := by
  intro sched p q hk hp hq h
  rw [encryptBlock_eq, encryptBlock_eq] at h
  have hlen := fun {p : Bytes} (hp : p.length = 16) => length_roundState hk hp (le_refl 9)
  have hshift := addRoundKey_injective hk le_rfl (length_shiftRows _) (length_shiftRows _) h
  have hsub := shiftRows_injective (by simpa using hlen hp) (by simpa using hlen hq) hshift
  exact roundState_injective hk le_rfl hp hq (subBytes_injective hsub)

end Sys2Proof.Machine
end

section
/-! PROOF. A stream is one XOR with the keystream, so it undoes itself and respects beginnings (R140, R146, R147). -/

namespace Sys2Proof.Machine

/-- The first n keystream blocks, joined (R140). -/
def keystream (ks : Nat → Bytes) : Nat → Bytes
  | 0 => []
  | n + 1 => ks 1 ++ keystream (fun i => ks (i + 1)) n

/-- XOR with a joined string is XOR with its first part and then with the rest. -/
theorem xorBytes_append_right (d a b : Bytes) :
    xorBytes d (a ++ b) = xorBytes (d.take a.length) a ++ xorBytes (d.drop a.length) b := by
  induction a generalizing d with
  | nil => rfl
  | cons x a ih =>
    cases d with
    | nil => rfl
    | cons y d => exact congrArg ((y ^^^ x) :: ·) (ih d)

/-- XOR of a beginning is the beginning of the XOR. -/
theorem xorBytes_take (d b : Bytes) (n : Nat) : xorBytes (d.take n) b = (xorBytes d b).take n := by
  induction d generalizing n b with
  | nil => simp
  | cons y d ih =>
    cases n with
    | zero => simp
    | succ n =>
      cases b with
      | nil => rfl
      | cons x b => exact congrArg ((y ^^^ x) :: ·) (ih b n)

section Keystream

variable {ks : Nat → Bytes} (hk : ∀ i, (ks i).length = 16)

include hk

theorem length_keystream (n : Nat) : (keystream ks n).length = 16 * n := by
  induction n generalizing ks with
  | zero => rfl
  | succ n ih =>
    rw [keystream, List.length_append, hk, ih fun i => hk (i + 1)]
    omega

/-- The stream XORs the data with the joined keystream blocks, of which it uses no more bytes than the data has (R140). -/
theorem xorStream_eq {n : Nat} {d : Bytes} (hd : d.length ≤ 16 * n) : xorStream ks d = xorBytes d (keystream ks n) := by
  induction n generalizing ks d with
  | zero =>
    rw [List.length_eq_zero_iff.1 (by omega : d.length = 0)]
    rfl
  | succ n ih =>
    by_cases hnil : d = []
    · subst hnil
      rfl
    · rw [xorStream_step ks hnil, ih (fun i => hk (i + 1)) (by rw [List.length_drop]; omega), keystream,
        xorBytes_append_right, hk]

/-- A stream applied twice gives the data back (R146). -/
theorem xorStream_xorStream (d : Bytes) : xorStream ks (xorStream ks d) = d := by
  have hd : d.length ≤ 16 * d.length := by omega
  rw [xorStream_eq hk (n := d.length) (by rwa [length_xorStream ks hk]), xorStream_eq hk hd,
    xorBytes_twice d _ (by rwa [length_keystream hk])]

/-- The stream of a beginning of the data is the beginning of its stream (R147). -/
theorem xorStream_take (d : Bytes) (n : Nat) : xorStream ks (d.take n) = (xorStream ks d).take n := by
  have hd : d.length ≤ 16 * d.length := by omega
  rw [xorStream_eq hk hd, xorStream_eq hk (n := d.length) (by rw [List.length_take]; omega), xorBytes_take]

end Keystream

/-- Settles O16: both schemes are the stream XOR with whole keystream blocks. -/
theorem streamsAreSymmetric : Obligations.StreamsAreSymmetric :=
  fun _ d hk => ⟨fun _ _ => xorStream_xorStream (fun _ => length_aes hk _) d,
    fun _ _ _ _ => xorStream_xorStream (fun _ => length_aes hk _) d⟩

/-- Settles O17: both schemes are the stream XOR with whole keystream blocks. -/
theorem streamsRespectBeginnings : Obligations.StreamsRespectBeginnings :=
  fun _ d n hk => ⟨fun _ _ => xorStream_take (fun _ => length_aes hk _) d n,
    fun _ _ _ _ => xorStream_take (fun _ => length_aes hk _) d n⟩

end Sys2Proof.Machine
end

section
/-! PROOF. `Inc128` is an increment of the big-endian reading (R142). -/

namespace Sys2Proof.Machine

/-- The big-endian reading of a byte string of any length (R12). -/
def bigEndian (b : Bytes) : Nat := b.foldl (fun n x => 256 * n + x.toNat) 0

theorem be128_eq (b : Bytes) : be128 b = BitVec.ofNat 128 (bigEndian b) := rfl

theorem bigEndian_append_singleton (b : Bytes) (x : Byte) : bigEndian (b ++ [x]) = 256 * bigEndian b + x.toNat := by
  rw [bigEndian, List.foldl_append]
  rfl

/-- `unbe128` gives back the 16 bytes that `be128` read (R12). -/
theorem unbe128_be128 {b : Bytes} (hb : b.length = 16) : unbe128 (be128 b) = b := by
  refine bytes_ext (by rw [length_unbe128, hb]) fun i hi => ?_
  rw [length_unbe128] at hi
  rw [getD_unbe128 _ hi, extractLsb'_be128 hb hi]

/-- Bytes 0xFF carry an increment into what stands before them (R142). -/
theorem bigEndian_append_ff (b : Bytes) (m : Nat) :
    bigEndian (b ++ List.replicate m 0xFF) + 1 = 256 ^ m * (bigEndian b + 1) := by
  induction m with
  | zero => simp
  | succ m ih =>
    rw [List.replicate_succ', ← List.append_assoc, bigEndian_append_singleton, pow_succ', Nat.mul_assoc, ← ih]
    rfl

theorem bigEndian_append_zeros (b : Bytes) (m : Nat) :
    bigEndian (b ++ List.replicate m 0x00) = 256 ^ m * bigEndian b := by
  induction m with
  | zero => simp
  | succ m ih =>
    rw [List.replicate_succ', ← List.append_assoc, bigEndian_append_singleton, pow_succ', Nat.mul_assoc, ← ih]
    rfl

/-- A byte that is not 0xFF takes the carry (R142). -/
theorem bigEndian_succ (front : Bytes) {x : Byte} (hx : x ≠ 0xFF) (m : Nat) :
    bigEndian (front ++ [x] ++ List.replicate m 0xFF) + 1 = bigEndian (front ++ [x + 1] ++ List.replicate m 0x00) := by
  have hbyte : (x + 1).toNat = x.toNat + 1 := by
    have hlt : x.toNat ≠ 255 := fun h => hx (BitVec.eq_of_toNat_eq h)
    rw [BitVec.toNat_add]
    exact Nat.mod_eq_of_lt (by have := x.isLt; change x.toNat + 1 < 256; omega)
  rw [bigEndian_append_ff, bigEndian_append_zeros, bigEndian_append_singleton, bigEndian_append_singleton, hbyte,
    Nat.add_assoc]

/-- Settles O18: the incremented number is the reading of the bytes written out; past all 0xFF it is 2¹²⁸, which
wraps. -/
theorem nonceIncrementCarries : Obligations.NonceIncrementCarries := by
  refine ⟨fun front x m hlen hx => ?_, by decide⟩
  have hnext : (front ++ [x + 1] ++ List.replicate m 0x00).length = 16 := by simp; omega
  rw [← unbe128_be128 hnext, inc128, be128_eq, be128_eq, ← bigEndian_succ front hx m, BitVec.ofNat_add]
  rfl

end Sys2Proof.Machine
end

section
/-! PROOF. A varint is the shortest form of its number in 7-bit groups (R85, R86). -/

namespace Sys2Proof.Machine

theorem varint_of_lt {v : Nat} (hv : v < 2 ^ 32) : varint v = varintLoop 5 v := if_pos hv

/-- The number that 7-bit groups carry, least significant first (R85). -/
def groupsValue (b : Bytes) : Nat := b.foldr (fun b n => (b &&& 0x7F).toNat + 128 * n) 0

theorem varintLoop_last (fuel : Nat) {v : Nat} (hv : v < 128) : varintLoop (fuel + 1) v = [BitVec.ofNat 8 v] := by
  rw [varintLoop, Nat.div_eq_of_lt hv, if_neg (by decide), Nat.mod_eq_of_lt hv]

theorem varintLoop_more (fuel : Nat) {v : Nat} (hv : 128 ≤ v) :
    varintLoop (fuel + 1) v = (0x80 ||| BitVec.ofNat 8 (v % 128)) :: varintLoop fuel (v / 128) := by
  rw [varintLoop, if_pos (by omega)]

/-- The bits of a group that is not the last (R85). -/
theorem continuedGroup {n : Nat} (hn : n < 128) :
    ((0x80 ||| BitVec.ofNat 8 n : Byte) &&& 0x7F).toNat = n ∧ (0x80 ||| BitVec.ofNat 8 n : Byte).getLsbD 7 = true := by
  revert n
  decide +kernel

/-- The bits of a last group (R85). -/
theorem lastGroup {n : Nat} (hn : n < 128) :
    ((BitVec.ofNat 8 n : Byte) &&& 0x7F).toNat = n ∧ (BitVec.ofNat 8 n : Byte).getLsbD 7 = false := by
  revert n
  decide +kernel

/-- With fuel for all its groups, the loop writes out the whole number (R85). -/
theorem groupsValue_varintLoop (fuel : Nat) {v : Nat} (hv : v < 128 ^ (fuel + 1)) :
    groupsValue (varintLoop (fuel + 1) v) = v := by
  induction fuel generalizing v with
  | zero =>
    rw [varintLoop_last 0 hv, groupsValue, List.foldr_cons, List.foldr_nil, (lastGroup hv).1]
    rfl
  | succ fuel ih =>
    rcases Nat.lt_or_ge v 128 with hlast | hmore
    · rw [varintLoop_last _ hlast, groupsValue, List.foldr_cons, List.foldr_nil, (lastGroup hlast).1]
      rfl
    · have hrest := ih (Nat.div_lt_of_lt_mul (by rwa [← pow_succ']))
      rw [varintLoop_more _ hmore, groupsValue, List.foldr_cons, ← groupsValue, hrest,
        (continuedGroup (Nat.mod_lt v (by decide))).1, Nat.mod_add_div]

/-- The shortest form (R85): bit 7 is set in all bytes but the last, and the last is not zero unless it is the only one and
the number is zero. -/
def ShortestForm (b : Bytes) (v : Nat) : Prop :=
  ∃ front last, b = front ++ [last] ∧ (∀ x ∈ front, x.getLsbD 7 = true) ∧ last.getLsbD 7 = false ∧
    (v ≠ 0 → last ≠ 0x00) ∧ (v = 0 → front = [])

theorem shortestForm_last {v : Nat} (hv : v < 128) : ShortestForm [BitVec.ofNat 8 v] v := by
  refine ⟨[], _, rfl, nofun, (lastGroup hv).2, fun hne h => hne ?_, fun _ => rfl⟩
  rw [← (lastGroup hv).1, h]
  rfl

/-- With fuel for all its groups, the loop writes the shortest form (R85). -/
theorem shortestForm_varintLoop (fuel : Nat) {v : Nat} (hv : v < 128 ^ (fuel + 1)) :
    ShortestForm (varintLoop (fuel + 1) v) v := by
  induction fuel generalizing v with
  | zero => exact varintLoop_last 0 hv ▸ shortestForm_last hv
  | succ fuel ih =>
    rcases Nat.lt_or_ge v 128 with hlast | hmore
    · exact varintLoop_last _ hlast ▸ shortestForm_last hlast
    · have hrest : v / 128 < 128 ^ (fuel + 1) := Nat.div_lt_of_lt_mul (by rwa [← pow_succ'])
      obtain ⟨front, last, heq, hfront, htop, hne, _⟩ := ih hrest
      rw [varintLoop_more _ hmore, heq]
      refine ⟨_ :: front, last, rfl, ?_, htop, fun _ => hne (by omega), fun h => by omega⟩
      exact List.forall_mem_cons.2 ⟨(continuedGroup (Nat.mod_lt v (by decide))).2, hfront⟩

theorem length_varintLoop (fuel v : Nat) :
    (varintLoop (fuel + 1) v).length = if v < 128 then 1 else (varintLoop fuel (v / 128)).length + 1 := by
  split
  · rw [varintLoop_last _ ‹_›]
    rfl
  · rw [varintLoop_more _ (by omega)]
    rfl

/-- The length of a varint by thresholds (R86): each threshold is one more group of 7 bits. -/
theorem varLen_eq {v : Nat} (hv : v < 2 ^ 32) :
    varLen v = if v < 2 ^ 7 then 1 else if v < 2 ^ 14 then 2 else if v < 2 ^ 21 then 3 else if v < 2 ^ 28 then 4 else 5 := by
  rw [varLen, varint_of_lt hv]
  simp only [length_varintLoop, Nat.div_div_eq_div_mul]
  split_ifs <;> omega

/-- Settles O24: five groups are enough below 2³², and the loop stops at the first that is the last. -/
theorem varintCarriesTheNumber : Obligations.VarintCarriesTheNumber := by
  intro v hv
  have hfuel : v < 128 ^ (4 + 1) := by omega
  refine ⟨?_, ?_, varLen_eq hv⟩
  · rw [varint_of_lt hv]
    exact groupsValue_varintLoop 4 hfuel
  · rw [varint_of_lt hv]
    exact shortestForm_varintLoop 4 hfuel

end Sys2Proof.Machine
end

section
/-! PROOF. The layouts of the two frames, and their payloads decrypted (R88, R89, R183 to R190, R146). -/

namespace Sys2Proof.Machine

theorem length_ctrSimple {k : Bytes} (hk : k.length = 16) (pid sid : Word) (d : Bytes) :
    (ctrSimple k pid sid d).length = d.length := length_xorStream _ (fun _ => length_aes hk _) d

theorem length_ctrLwan {k : Bytes} (hk : k.length = 16) (dir : Byte) (addr : Word) (fc : Half) (d : Bytes) :
    (ctrLwan k dir addr fc d).length = d.length := length_xorStream _ (fun _ => length_aes hk _) d

/-- What the MIC of the LoRaWAN frame covers: the header and the encrypted payload (R183). -/
def lwMessage (ka : Bytes) (addr : Word) (fc : Half) (p : Bytes) : Bytes :=
  lwHeader addr fc ++ ctrLwan ka dirUp addr fc p

theorem lwBuild_eq (kn ka : Bytes) (addr : Word) (fc : Half) (p : Bytes) :
    lwBuild kn ka addr fc p = lwMessage ka addr fc p ++ mic kn addr fc (lwMessage ka addr fc p) := rfl

theorem length_lwHeader (addr : Word) (fc : Half) : (lwHeader addr fc).length = 9 := rfl

theorem length_mic {kn : Bytes} (hn : kn.length = 16) (addr : Word) (fc : Half) (m : Bytes) :
    (mic kn addr fc m).length = 4 := by
  rw [mic, List.length_take, length_cmac hn]
  rfl

/-- The MIC preamble block byte by byte (R84). -/
theorem b0Block_eq (addr : Word) (fc : Half) (n : Nat) :
    b0Block addr fc n = [0x49, 0, 0, 0, 0, 0x00] ++ le32 addr ++ le16 fc ++ [0, 0, 0, BitVec.ofNat 8 n] := rfl

section Lorawan

variable {ka : Bytes} (ha : ka.length = 16) (kn : Bytes) (addr : Word) (fc : Half) (p : Bytes)

include ha

theorem length_lwMessage : (lwMessage ka addr fc p).length = 9 + p.length := by
  rw [lwMessage, List.length_append, length_lwHeader, length_ctrLwan ha]

/-- The frame before the MIC (R183). -/
theorem slice_lwBuild_message : slice (lwBuild kn ka addr fc p) 0 (9 + p.length) = lwMessage ka addr fc p :=
  List.take_left' (length_lwMessage ha addr fc p)

/-- The payload field of the frame (R183). -/
theorem slice_lwBuild_payload : slice (lwBuild kn ka addr fc p) 9 p.length = ctrLwan ka 0x00 addr fc p := by
  rw [lwBuild_eq, lwMessage, List.append_assoc]
  exact List.take_left' (length_ctrLwan ha _ addr fc p)

/-- The frame after the payload field (R183). -/
theorem drop_lwBuild : (lwBuild kn ka addr fc p).drop (9 + p.length) = mic kn addr fc (lwMessage ka addr fc p) :=
  List.drop_left' (length_lwMessage ha addr fc p)

theorem length_lwBuild (hn : kn.length = 16) : (lwBuild kn ka addr fc p).length = 13 + p.length := by
  rw [lwBuild_eq, List.length_append, length_lwMessage ha, length_mic hn]
  omega

end Lorawan

/-- Settles O27: the frame is the header, the encrypted payload and the MIC of both, each of known length. -/
theorem lorawanFrameLayout : Obligations.LorawanFrameLayout := by
  intro kn ka addr fc p hn ha _
  refine ⟨length_lwBuild ha kn addr fc p hn, rfl, slice_lwBuild_payload ha kn addr fc p, ?_⟩
  rw [drop_lwBuild ha, slice_lwBuild_message ha, mic, length_lwMessage ha, b0Block_eq]

theorem length_msHeader (flags : Byte) (sid pid : Word) : (msHeader flags sid pid).length = 16 := rfl

/-- The length of the micro-encoding by those of its varints (R180, R86). -/
theorem length_pbEnc (port : Word) (p : Bytes) :
    (pbEnc port p).length = 2 + varLen port.toNat + varLen p.length + p.length := by
  simp only [pbEnc, varLen, List.length_append, List.length_singleton]
  omega

theorem drop_msBuild (flags : Byte) (km : Bytes) (sid pid : Word) (p : Bytes) :
    (msBuild flags km sid pid p).drop 16 = ctrSimple km pid sid (pbEnc textPort p) := rfl

theorem length_msBuild {km : Bytes} (hk : km.length = 16) (flags : Byte) (sid pid : Word) (p : Bytes) :
    (msBuild flags km sid pid p).length = 16 + (2 + varLen 1 + varLen p.length + p.length) := by
  rw [msBuild, List.length_append, length_msHeader, length_ctrSimple hk, length_pbEnc]
  rfl

/-- The length of a varint of a payload's length (R86, R190). -/
theorem varLen_payload {n : Nat} (hn : n ≤ 246) : varLen n = if n ≤ 127 then 1 else 2 := by
  rw [varLen_eq (by omega)]
  split_ifs <;> omega

/-- Settles O28: the packet is the header and the encrypted micro-encoding, whose varints have one byte,
or two from 128 on. -/
theorem meshtasticPacketLayout : Obligations.MeshtasticPacketLayout := by
  intro flags km sid pid p hk hp
  refine ⟨length_msBuild hk flags sid pid p, ?_, rfl, drop_msBuild flags km sid pid p⟩
  rw [length_msBuild hk, varLen_payload hp, varLen_payload (by decide), if_pos (by decide)]
  split_ifs <;> omega

/-- The micro-encoding ends with the payload (R180). -/
theorem drop_pbEnc (port : Word) (p : Bytes) : (pbEnc port p).drop ((pbEnc port p).length - p.length) = p := by
  rw [pbEnc, List.length_append, Nat.add_sub_cancel, List.drop_left]

/-- Settles O29: each encrypted field is its stream, and the stream undoes itself. -/
theorem framesDecryptBack : Obligations.FramesDecryptBack := by
  intro kn ka km addr sid pid fc flags p hn ha hm hp
  have hblocks : blockCount p.length ≤ 255 := by
    unfold blockCount
    omega
  refine ⟨?_, (streamsAreSymmetric km _ hm).1 pid sid, drop_pbEnc 1 p⟩
  rw [length_lwBuild ha kn addr fc p hn, Nat.add_sub_cancel_left, slice_lwBuild_payload ha]
  exact (streamsAreSymmetric ka p ha).2 0x00 addr fc hblocks

end Sys2Proof.Machine
end
